-- ==== Sys2Proof/Word.lean ====
section
/-! DEFINITION. The machine's word types and their plainest helpers. -/

namespace Sys2Proof

/-- A register, an address or an instruction word: 32 bits (00_scope.md R9, R17). -/
abbrev Word := BitVec 32

/-- One byte of memory, the smallest addressable unit (20_memory.md R100). -/
abbrev Byte := BitVec 8

/-- A 16-bit immediate field (30_encoding.md R151). -/
abbrev Imm16 := BitVec 16

/-- A general-register or COP0-register number, a 5-bit field (30_encoding.md R157). -/
abbrev RegNum := BitVec 5

/-- `flag c` is the word 1 when `c` holds and 0 otherwise, the result of a comparison (40_alu.md R208). -/
def flag (c : Bool) : Word := if c then 1 else 0

end Sys2Proof
end

