-- ==== Sys2Proof/Syntax.lean ====
section
/-! DEFINITION. The instructions: one constructor for each row of spec/opcode_table.json, named by its mnemonic in small
letters (BREAK is `brk`, since `break` is a word of Lean). Operands stand in the order of 30_encoding.md R175.
The coprocessor rows (R169) and the named reserved rows (R168) carry no operand, as in the table; reserved words
that have no row have no constructor (log 13). -/

namespace Sys2Proof

inductive Instr where
  -- 40_alu.md: register arithmetic, logic, comparison
  | add (rd rs rt : RegNum)
  | addu (rd rs rt : RegNum)
  | sub (rd rs rt : RegNum)
  | subu (rd rs rt : RegNum)
  | and (rd rs rt : RegNum)
  | or (rd rs rt : RegNum)
  | xor (rd rs rt : RegNum)
  | nor (rd rs rt : RegNum)
  | slt (rd rs rt : RegNum)
  | sltu (rd rs rt : RegNum)
  -- 40_alu.md: immediate forms
  | addi (rt rs : RegNum) (imm : Imm16)
  | addiu (rt rs : RegNum) (imm : Imm16)
  | slti (rt rs : RegNum) (imm : Imm16)
  | sltiu (rt rs : RegNum) (imm : Imm16)
  | andi (rt rs : RegNum) (imm : Imm16)
  | ori (rt rs : RegNum) (imm : Imm16)
  | xori (rt rs : RegNum) (imm : Imm16)
  | lui (rt : RegNum) (imm : Imm16)
  -- 40_alu.md: shifts
  | sll (rd rt : RegNum) (sa : BitVec 5)
  | srl (rd rt : RegNum) (sa : BitVec 5)
  | sra (rd rt : RegNum) (sa : BitVec 5)
  | sllv (rd rt rs : RegNum)
  | srlv (rd rt rs : RegNum)
  | srav (rd rt rs : RegNum)
  -- 41_muldiv.md
  | mult (rs rt : RegNum)
  | multu (rs rt : RegNum)
  | div (rs rt : RegNum)
  | divu (rs rt : RegNum)
  | mfhi (rd : RegNum)
  | mflo (rd : RegNum)
  | mthi (rs : RegNum)
  | mtlo (rs : RegNum)
  -- 43_loadstore.md
  | lb (rt : RegNum) (imm : Imm16) (rs : RegNum)
  | lbu (rt : RegNum) (imm : Imm16) (rs : RegNum)
  | lh (rt : RegNum) (imm : Imm16) (rs : RegNum)
  | lhu (rt : RegNum) (imm : Imm16) (rs : RegNum)
  | lw (rt : RegNum) (imm : Imm16) (rs : RegNum)
  | sb (rt : RegNum) (imm : Imm16) (rs : RegNum)
  | sh (rt : RegNum) (imm : Imm16) (rs : RegNum)
  | sw (rt : RegNum) (imm : Imm16) (rs : RegNum)
  -- 42_branch.md: conditional branches
  | beq (rs rt : RegNum) (imm : Imm16)
  | bne (rs rt : RegNum) (imm : Imm16)
  | blez (rs : RegNum) (imm : Imm16)
  | bgtz (rs : RegNum) (imm : Imm16)
  | bltz (rs : RegNum) (imm : Imm16)
  | bgez (rs : RegNum) (imm : Imm16)
  | bltzal (rs : RegNum) (imm : Imm16)
  | bgezal (rs : RegNum) (imm : Imm16)
  -- 42_branch.md: jumps
  | j (target : BitVec 26)
  | jal (target : BitVec 26)
  | jr (rs : RegNum)
  | jalr (rd rs : RegNum)
  -- 44_system.md: system calls and traps
  | syscall (code : BitVec 20)
  | brk (code : BitVec 20)
  | tge (rs rt : RegNum) (code : BitVec 10)
  | tgeu (rs rt : RegNum) (code : BitVec 10)
  | tlt (rs rt : RegNum) (code : BitVec 10)
  | tltu (rs rt : RegNum) (code : BitVec 10)
  | teq (rs rt : RegNum) (code : BitVec 10)
  | tne (rs rt : RegNum) (code : BitVec 10)
  | tgei (rs : RegNum) (imm : Imm16)
  | tgeiu (rs : RegNum) (imm : Imm16)
  | tlti (rs : RegNum) (imm : Imm16)
  | tltiu (rs : RegNum) (imm : Imm16)
  | teqi (rs : RegNum) (imm : Imm16)
  | tnei (rs : RegNum) (imm : Imm16)
  -- 44_system.md: COP0 access, return, synchronisation, cache, TLB
  | mtc0 (rt rd : RegNum)
  | mfc0 (rt rd : RegNum)
  | eret
  | sync
  | cache (op : RegNum) (imm : Imm16) (base : RegNum)
  | tlbr
  | tlbwi
  | tlbwr
  | tlbp
  -- 30_encoding.md R169: the coprocessor space
  | cop1
  | cop2
  | cop3
  | lwc1
  | lwc2
  | ldc1
  | ldc2
  | swc1
  | swc2
  | sdc1
  | sdc2
  -- 30_encoding.md R168: reserved words with a row of the table
  | beql
  | bnel
  | blezl
  | bgtzl
  | daddi
  | daddiu
  | ldl
  | ldr
  | special2
  | special3
  | lwl
  | lwr
  | lwu
  | swl
  | sdl
  | sdr
  | swr
  | ll
  | pref
  | lld
  | ld
  | sc
  | swc3
  | scd
  | sd
  | bltzl
  | bgezl
  | bltzall
  | bgezall
  | movci
  | movz
  | movn
  | dsllv
  | dsrlv
  | dsrav
  | dmult
  | dmultu
  | ddiv
  | ddivu
  | dadd
  | daddu
  | dsub
  | dsubu
  | dsll
  | dsrl
  | dsra
  | dsll32
  | dsrl32
  | dsra32
  | dmfc0
  | dmtc0
  | rfe
  | deret
  | wait
  deriving DecidableEq, Repr

end Sys2Proof
end

