-- ==== Sys2Proof/Decode.lean ====
section
/-! DEFINITION. Decoding, total on words and on bytes, and after it the encoder. The maps are those of 30_encoding.md
R164 to R167; the fields are those of R151. Must-be-zero fields are ignored (R170), and the encoder writes 0 in
them (log 14). -/

namespace Sys2Proof

/-! ### The fields of an instruction word (30_encoding.md R151) -/

def opcodeOf (w : Word) : BitVec 6 := w.extractLsb' 26 6
def rsOf (w : Word) : RegNum := w.extractLsb' 21 5
def rtOf (w : Word) : RegNum := w.extractLsb' 16 5
def rdOf (w : Word) : RegNum := w.extractLsb' 11 5
def saOf (w : Word) : BitVec 5 := w.extractLsb' 6 5
def functOf (w : Word) : BitVec 6 := w.extractLsb' 0 6
def immOf (w : Word) : Imm16 := w.extractLsb' 0 16
def targetOf (w : Word) : BitVec 26 := w.extractLsb' 0 26
def code20Of (w : Word) : BitVec 20 := w.extractLsb' 6 20
def code10Of (w : Word) : BitVec 10 := w.extractLsb' 6 10
def coOf (w : Word) : BitVec 1 := w.extractLsb' 25 1

/-! ### Results of decoding -/

/-- Why no row of the table matches: the place of the opcode maps that is reserved (30_encoding.md R164 to R168),
or fewer bytes than an instruction has. Raised by the decoder; the step answers the first five with the
ReservedInstruction exception (44_system.md R343), which is what the spec says such a word does. -/
inductive DecodeReject where
  | reservedOpcode (opcode : BitVec 6)
  | reservedSpecial (funct : BitVec 6)
  | reservedRegimm (rt : BitVec 5)
  | reservedCop0Move (rs : BitVec 5)
  | reservedCop0Function (funct : BitVec 6)
  | tooFewBytes
  deriving DecidableEq, Repr

/-- An instruction, or the reason there is none. -/
inductive DecodeResult where
  | instr (i : Instr)
  | reject (why : DecodeReject)
  deriving DecidableEq, Repr

def DecodeResult.instr? : DecodeResult → Option Instr
  | .instr i => some i
  | .reject _ => none

/-! ### The maps -/

/-- SPECIAL, by funct (30_encoding.md R165). -/
def decodeSpecial (w : Word) : BitVec 6 → DecodeResult
  | 0x00#6 => .instr (.sll (rdOf w) (rtOf w) (saOf w))
  | 0x01#6 => .instr .movci
  | 0x02#6 => .instr (.srl (rdOf w) (rtOf w) (saOf w))
  | 0x03#6 => .instr (.sra (rdOf w) (rtOf w) (saOf w))
  | 0x04#6 => .instr (.sllv (rdOf w) (rtOf w) (rsOf w))
  | 0x06#6 => .instr (.srlv (rdOf w) (rtOf w) (rsOf w))
  | 0x07#6 => .instr (.srav (rdOf w) (rtOf w) (rsOf w))
  | 0x08#6 => .instr (.jr (rsOf w))
  | 0x09#6 => .instr (.jalr (rdOf w) (rsOf w))
  | 0x0A#6 => .instr .movz
  | 0x0B#6 => .instr .movn
  | 0x0C#6 => .instr (.syscall (code20Of w))
  | 0x0D#6 => .instr (.brk (code20Of w))
  | 0x0F#6 => .instr .sync
  | 0x10#6 => .instr (.mfhi (rdOf w))
  | 0x11#6 => .instr (.mthi (rsOf w))
  | 0x12#6 => .instr (.mflo (rdOf w))
  | 0x13#6 => .instr (.mtlo (rsOf w))
  | 0x14#6 => .instr .dsllv
  | 0x16#6 => .instr .dsrlv
  | 0x17#6 => .instr .dsrav
  | 0x18#6 => .instr (.mult (rsOf w) (rtOf w))
  | 0x19#6 => .instr (.multu (rsOf w) (rtOf w))
  | 0x1A#6 => .instr (.div (rsOf w) (rtOf w))
  | 0x1B#6 => .instr (.divu (rsOf w) (rtOf w))
  | 0x1C#6 => .instr .dmult
  | 0x1D#6 => .instr .dmultu
  | 0x1E#6 => .instr .ddiv
  | 0x1F#6 => .instr .ddivu
  | 0x20#6 => .instr (.add (rdOf w) (rsOf w) (rtOf w))
  | 0x21#6 => .instr (.addu (rdOf w) (rsOf w) (rtOf w))
  | 0x22#6 => .instr (.sub (rdOf w) (rsOf w) (rtOf w))
  | 0x23#6 => .instr (.subu (rdOf w) (rsOf w) (rtOf w))
  | 0x24#6 => .instr (.and (rdOf w) (rsOf w) (rtOf w))
  | 0x25#6 => .instr (.or (rdOf w) (rsOf w) (rtOf w))
  | 0x26#6 => .instr (.xor (rdOf w) (rsOf w) (rtOf w))
  | 0x27#6 => .instr (.nor (rdOf w) (rsOf w) (rtOf w))
  | 0x2A#6 => .instr (.slt (rdOf w) (rsOf w) (rtOf w))
  | 0x2B#6 => .instr (.sltu (rdOf w) (rsOf w) (rtOf w))
  | 0x2C#6 => .instr .dadd
  | 0x2D#6 => .instr .daddu
  | 0x2E#6 => .instr .dsub
  | 0x2F#6 => .instr .dsubu
  | 0x30#6 => .instr (.tge (rsOf w) (rtOf w) (code10Of w))
  | 0x31#6 => .instr (.tgeu (rsOf w) (rtOf w) (code10Of w))
  | 0x32#6 => .instr (.tlt (rsOf w) (rtOf w) (code10Of w))
  | 0x33#6 => .instr (.tltu (rsOf w) (rtOf w) (code10Of w))
  | 0x34#6 => .instr (.teq (rsOf w) (rtOf w) (code10Of w))
  | 0x36#6 => .instr (.tne (rsOf w) (rtOf w) (code10Of w))
  | 0x38#6 => .instr .dsll
  | 0x3A#6 => .instr .dsrl
  | 0x3B#6 => .instr .dsra
  | 0x3C#6 => .instr .dsll32
  | 0x3E#6 => .instr .dsrl32
  | 0x3F#6 => .instr .dsra32
  | f => .reject (.reservedSpecial f)

/-- REGIMM, by the rt field (30_encoding.md R166). -/
def decodeRegimm (w : Word) : BitVec 5 → DecodeResult
  | 0x00#5 => .instr (.bltz (rsOf w) (immOf w))
  | 0x01#5 => .instr (.bgez (rsOf w) (immOf w))
  | 0x02#5 => .instr .bltzl
  | 0x03#5 => .instr .bgezl
  | 0x08#5 => .instr (.tgei (rsOf w) (immOf w))
  | 0x09#5 => .instr (.tgeiu (rsOf w) (immOf w))
  | 0x0A#5 => .instr (.tlti (rsOf w) (immOf w))
  | 0x0B#5 => .instr (.tltiu (rsOf w) (immOf w))
  | 0x0C#5 => .instr (.teqi (rsOf w) (immOf w))
  | 0x0E#5 => .instr (.tnei (rsOf w) (immOf w))
  | 0x10#5 => .instr (.bltzal (rsOf w) (immOf w))
  | 0x11#5 => .instr (.bgezal (rsOf w) (immOf w))
  | 0x12#5 => .instr .bltzall
  | 0x13#5 => .instr .bgezall
  | r => .reject (.reservedRegimm r)

/-- COP0 with w[25] = 0, by the rs field (30_encoding.md R167). -/
def decodeCop0Move (w : Word) : BitVec 5 → DecodeResult
  | 0x00#5 => .instr (.mfc0 (rtOf w) (rdOf w))
  | 0x01#5 => .instr .dmfc0
  | 0x04#5 => .instr (.mtc0 (rtOf w) (rdOf w))
  | 0x05#5 => .instr .dmtc0
  | r => .reject (.reservedCop0Move r)

/-- COP0 with w[25] = 1, by funct (30_encoding.md R167). -/
def decodeCop0Function : BitVec 6 → DecodeResult
  | 0x01#6 => .instr .tlbr
  | 0x02#6 => .instr .tlbwi
  | 0x06#6 => .instr .tlbwr
  | 0x08#6 => .instr .tlbp
  | 0x10#6 => .instr .rfe
  | 0x18#6 => .instr .eret
  | 0x1F#6 => .instr .deret
  | 0x20#6 => .instr .wait
  | f => .reject (.reservedCop0Function f)

/-- COP0: w[25] chooses between the moves and the CO functions (30_encoding.md R156). -/
def decodeCop0 (w : Word) : BitVec 1 → DecodeResult
  | 1#1 => decodeCop0Function (functOf w)
  | _ => decodeCop0Move w (rsOf w)

/-- The primary opcode map (30_encoding.md R164). -/
def decodeOpcode (w : Word) : BitVec 6 → DecodeResult
  | 0x00#6 => decodeSpecial w (functOf w)
  | 0x01#6 => decodeRegimm w (rtOf w)
  | 0x02#6 => .instr (.j (targetOf w))
  | 0x03#6 => .instr (.jal (targetOf w))
  | 0x04#6 => .instr (.beq (rsOf w) (rtOf w) (immOf w))
  | 0x05#6 => .instr (.bne (rsOf w) (rtOf w) (immOf w))
  | 0x06#6 => .instr (.blez (rsOf w) (immOf w))
  | 0x07#6 => .instr (.bgtz (rsOf w) (immOf w))
  | 0x08#6 => .instr (.addi (rtOf w) (rsOf w) (immOf w))
  | 0x09#6 => .instr (.addiu (rtOf w) (rsOf w) (immOf w))
  | 0x0A#6 => .instr (.slti (rtOf w) (rsOf w) (immOf w))
  | 0x0B#6 => .instr (.sltiu (rtOf w) (rsOf w) (immOf w))
  | 0x0C#6 => .instr (.andi (rtOf w) (rsOf w) (immOf w))
  | 0x0D#6 => .instr (.ori (rtOf w) (rsOf w) (immOf w))
  | 0x0E#6 => .instr (.xori (rtOf w) (rsOf w) (immOf w))
  | 0x0F#6 => .instr (.lui (rtOf w) (immOf w))
  | 0x10#6 => decodeCop0 w (coOf w)
  | 0x11#6 => .instr .cop1
  | 0x12#6 => .instr .cop2
  | 0x13#6 => .instr .cop3
  | 0x14#6 => .instr .beql
  | 0x15#6 => .instr .bnel
  | 0x16#6 => .instr .blezl
  | 0x17#6 => .instr .bgtzl
  | 0x18#6 => .instr .daddi
  | 0x19#6 => .instr .daddiu
  | 0x1A#6 => .instr .ldl
  | 0x1B#6 => .instr .ldr
  | 0x1C#6 => .instr .special2
  | 0x1F#6 => .instr .special3
  | 0x20#6 => .instr (.lb (rtOf w) (immOf w) (rsOf w))
  | 0x21#6 => .instr (.lh (rtOf w) (immOf w) (rsOf w))
  | 0x22#6 => .instr .lwl
  | 0x23#6 => .instr (.lw (rtOf w) (immOf w) (rsOf w))
  | 0x24#6 => .instr (.lbu (rtOf w) (immOf w) (rsOf w))
  | 0x25#6 => .instr (.lhu (rtOf w) (immOf w) (rsOf w))
  | 0x26#6 => .instr .lwr
  | 0x27#6 => .instr .lwu
  | 0x28#6 => .instr (.sb (rtOf w) (immOf w) (rsOf w))
  | 0x29#6 => .instr (.sh (rtOf w) (immOf w) (rsOf w))
  | 0x2A#6 => .instr .swl
  | 0x2B#6 => .instr (.sw (rtOf w) (immOf w) (rsOf w))
  | 0x2C#6 => .instr .sdl
  | 0x2D#6 => .instr .sdr
  | 0x2E#6 => .instr .swr
  | 0x2F#6 => .instr (.cache (rtOf w) (immOf w) (rsOf w))
  | 0x30#6 => .instr .ll
  | 0x31#6 => .instr .lwc1
  | 0x32#6 => .instr .lwc2
  | 0x33#6 => .instr .pref
  | 0x34#6 => .instr .lld
  | 0x35#6 => .instr .ldc1
  | 0x36#6 => .instr .ldc2
  | 0x37#6 => .instr .ld
  | 0x38#6 => .instr .sc
  | 0x39#6 => .instr .swc1
  | 0x3A#6 => .instr .swc2
  | 0x3B#6 => .instr .swc3
  | 0x3C#6 => .instr .scd
  | 0x3D#6 => .instr .sdc1
  | 0x3E#6 => .instr .sdc2
  | 0x3F#6 => .instr .sd
  | o => .reject (.reservedOpcode o)

/-- Decoding one word: total, and independent of any state (30_encoding.md R173). -/
def decode (w : Word) : DecodeResult := decodeOpcode w (opcodeOf w)

/-- Four bytes as a word, the first in bits 31:24 (20_memory.md R100). -/
def wordOfBytes (b0 b1 b2 b3 : Byte) : Word := b0 ++ b1 ++ b2 ++ b3

/-- Decoding the next instruction of a list of bytes, with the bytes after it: one big-endian word
(30_encoding.md R150, R172). -/
def decodeBytes : List Byte → DecodeResult × List Byte
  | b0 :: b1 :: b2 :: b3 :: rest => (decode (wordOfBytes b0 b1 b2 b3), rest)
  | bytes => (.reject .tooFewBytes, bytes)

/-- The bytes of a word as memory holds them, lowest address first (20_memory.md R100). -/
def bytesOfWord (w : Word) : List Byte :=
  [w.extractLsb' 24 8, w.extractLsb' 16 8, w.extractLsb' 8 8, w.extractLsb' 0 8]

/-- The word whose bits the opcode table gives as `w`, the bits above `nbits` being 0. -/
def tableWord (nbits w : Nat) : Word := BitVec.ofNat 32 (w % 2 ^ nbits)

/-- The instruction the decoder reads from a table word laid out as memory holds it. -/
def decodeTableWord (nbits w : Nat) : Option Instr :=
  (decodeBytes (bytesOfWord (tableWord nbits w))).1.instr?

/-! ### The encoder: the formats of 30_encoding.md R152 to R156, then one row an instruction -/

def rFormat (rs rt rd : RegNum) (sa : BitVec 5) (funct : BitVec 6) : Word := 0#6 ++ rs ++ rt ++ rd ++ sa ++ funct
def codeFormat (code : BitVec 20) (funct : BitVec 6) : Word := 0#6 ++ code ++ funct
def trapFormat (rs rt : RegNum) (code : BitVec 10) (funct : BitVec 6) : Word := 0#6 ++ rs ++ rt ++ code ++ funct
def iFormat (opcode : BitVec 6) (rs rt : RegNum) (imm : Imm16) : Word := opcode ++ rs ++ rt ++ imm
def jFormat (opcode : BitVec 6) (target : BitVec 26) : Word := opcode ++ target
def cop0MoveFormat (rs rt rd : RegNum) : Word := 0x10#6 ++ rs ++ rt ++ rd ++ 0#11
def cop0FunctionFormat (funct : BitVec 6) : Word := 0x10#6 ++ 1#1 ++ 0#19 ++ funct

/-- The word of an instruction. -/
def encode : Instr → Word
  | .add rd rs rt => rFormat rs rt rd 0 0x20#6
  | .addu rd rs rt => rFormat rs rt rd 0 0x21#6
  | .sub rd rs rt => rFormat rs rt rd 0 0x22#6
  | .subu rd rs rt => rFormat rs rt rd 0 0x23#6
  | .and rd rs rt => rFormat rs rt rd 0 0x24#6
  | .or rd rs rt => rFormat rs rt rd 0 0x25#6
  | .xor rd rs rt => rFormat rs rt rd 0 0x26#6
  | .nor rd rs rt => rFormat rs rt rd 0 0x27#6
  | .slt rd rs rt => rFormat rs rt rd 0 0x2A#6
  | .sltu rd rs rt => rFormat rs rt rd 0 0x2B#6
  | .addi rt rs imm => iFormat 0x08#6 rs rt imm
  | .addiu rt rs imm => iFormat 0x09#6 rs rt imm
  | .slti rt rs imm => iFormat 0x0A#6 rs rt imm
  | .sltiu rt rs imm => iFormat 0x0B#6 rs rt imm
  | .andi rt rs imm => iFormat 0x0C#6 rs rt imm
  | .ori rt rs imm => iFormat 0x0D#6 rs rt imm
  | .xori rt rs imm => iFormat 0x0E#6 rs rt imm
  | .lui rt imm => iFormat 0x0F#6 0 rt imm
  | .sll rd rt sa => rFormat 0 rt rd sa 0x00#6
  | .srl rd rt sa => rFormat 0 rt rd sa 0x02#6
  | .sra rd rt sa => rFormat 0 rt rd sa 0x03#6
  | .sllv rd rt rs => rFormat rs rt rd 0 0x04#6
  | .srlv rd rt rs => rFormat rs rt rd 0 0x06#6
  | .srav rd rt rs => rFormat rs rt rd 0 0x07#6
  | .mult rs rt => rFormat rs rt 0 0 0x18#6
  | .multu rs rt => rFormat rs rt 0 0 0x19#6
  | .div rs rt => rFormat rs rt 0 0 0x1A#6
  | .divu rs rt => rFormat rs rt 0 0 0x1B#6
  | .mfhi rd => rFormat 0 0 rd 0 0x10#6
  | .mflo rd => rFormat 0 0 rd 0 0x12#6
  | .mthi rs => rFormat rs 0 0 0 0x11#6
  | .mtlo rs => rFormat rs 0 0 0 0x13#6
  | .lb rt imm rs => iFormat 0x20#6 rs rt imm
  | .lbu rt imm rs => iFormat 0x24#6 rs rt imm
  | .lh rt imm rs => iFormat 0x21#6 rs rt imm
  | .lhu rt imm rs => iFormat 0x25#6 rs rt imm
  | .lw rt imm rs => iFormat 0x23#6 rs rt imm
  | .sb rt imm rs => iFormat 0x28#6 rs rt imm
  | .sh rt imm rs => iFormat 0x29#6 rs rt imm
  | .sw rt imm rs => iFormat 0x2B#6 rs rt imm
  | .beq rs rt imm => iFormat 0x04#6 rs rt imm
  | .bne rs rt imm => iFormat 0x05#6 rs rt imm
  | .blez rs imm => iFormat 0x06#6 rs 0 imm
  | .bgtz rs imm => iFormat 0x07#6 rs 0 imm
  | .bltz rs imm => iFormat 0x01#6 rs 0x00#5 imm
  | .bgez rs imm => iFormat 0x01#6 rs 0x01#5 imm
  | .bltzal rs imm => iFormat 0x01#6 rs 0x10#5 imm
  | .bgezal rs imm => iFormat 0x01#6 rs 0x11#5 imm
  | .j target => jFormat 0x02#6 target
  | .jal target => jFormat 0x03#6 target
  | .jr rs => rFormat rs 0 0 0 0x08#6
  | .jalr rd rs => rFormat rs 0 rd 0 0x09#6
  | .syscall code => codeFormat code 0x0C#6
  | .brk code => codeFormat code 0x0D#6
  | .tge rs rt code => trapFormat rs rt code 0x30#6
  | .tgeu rs rt code => trapFormat rs rt code 0x31#6
  | .tlt rs rt code => trapFormat rs rt code 0x32#6
  | .tltu rs rt code => trapFormat rs rt code 0x33#6
  | .teq rs rt code => trapFormat rs rt code 0x34#6
  | .tne rs rt code => trapFormat rs rt code 0x36#6
  | .tgei rs imm => iFormat 0x01#6 rs 0x08#5 imm
  | .tgeiu rs imm => iFormat 0x01#6 rs 0x09#5 imm
  | .tlti rs imm => iFormat 0x01#6 rs 0x0A#5 imm
  | .tltiu rs imm => iFormat 0x01#6 rs 0x0B#5 imm
  | .teqi rs imm => iFormat 0x01#6 rs 0x0C#5 imm
  | .tnei rs imm => iFormat 0x01#6 rs 0x0E#5 imm
  | .mtc0 rt rd => cop0MoveFormat 0x04#5 rt rd
  | .mfc0 rt rd => cop0MoveFormat 0x00#5 rt rd
  | .eret => cop0FunctionFormat 0x18#6
  | .sync => rFormat 0 0 0 0 0x0F#6
  | .cache op imm base => iFormat 0x2F#6 base op imm
  | .tlbr => cop0FunctionFormat 0x01#6
  | .tlbwi => cop0FunctionFormat 0x02#6
  | .tlbwr => cop0FunctionFormat 0x06#6
  | .tlbp => cop0FunctionFormat 0x08#6
  | .cop1 => jFormat 0x11#6 0
  | .cop2 => jFormat 0x12#6 0
  | .cop3 => jFormat 0x13#6 0
  | .lwc1 => jFormat 0x31#6 0
  | .lwc2 => jFormat 0x32#6 0
  | .ldc1 => jFormat 0x35#6 0
  | .ldc2 => jFormat 0x36#6 0
  | .swc1 => jFormat 0x39#6 0
  | .swc2 => jFormat 0x3A#6 0
  | .sdc1 => jFormat 0x3D#6 0
  | .sdc2 => jFormat 0x3E#6 0
  | .beql => jFormat 0x14#6 0
  | .bnel => jFormat 0x15#6 0
  | .blezl => jFormat 0x16#6 0
  | .bgtzl => jFormat 0x17#6 0
  | .daddi => jFormat 0x18#6 0
  | .daddiu => jFormat 0x19#6 0
  | .ldl => jFormat 0x1A#6 0
  | .ldr => jFormat 0x1B#6 0
  | .special2 => jFormat 0x1C#6 0
  | .special3 => jFormat 0x1F#6 0
  | .lwl => jFormat 0x22#6 0
  | .lwr => jFormat 0x26#6 0
  | .lwu => jFormat 0x27#6 0
  | .swl => jFormat 0x2A#6 0
  | .sdl => jFormat 0x2C#6 0
  | .sdr => jFormat 0x2D#6 0
  | .swr => jFormat 0x2E#6 0
  | .ll => jFormat 0x30#6 0
  | .pref => jFormat 0x33#6 0
  | .lld => jFormat 0x34#6 0
  | .ld => jFormat 0x37#6 0
  | .sc => jFormat 0x38#6 0
  | .swc3 => jFormat 0x3B#6 0
  | .scd => jFormat 0x3C#6 0
  | .sd => jFormat 0x3F#6 0
  | .bltzl => iFormat 0x01#6 0 0x02#5 0
  | .bgezl => iFormat 0x01#6 0 0x03#5 0
  | .bltzall => iFormat 0x01#6 0 0x12#5 0
  | .bgezall => iFormat 0x01#6 0 0x13#5 0
  | .movci => rFormat 0 0 0 0 0x01#6
  | .movz => rFormat 0 0 0 0 0x0A#6
  | .movn => rFormat 0 0 0 0 0x0B#6
  | .dsllv => rFormat 0 0 0 0 0x14#6
  | .dsrlv => rFormat 0 0 0 0 0x16#6
  | .dsrav => rFormat 0 0 0 0 0x17#6
  | .dmult => rFormat 0 0 0 0 0x1C#6
  | .dmultu => rFormat 0 0 0 0 0x1D#6
  | .ddiv => rFormat 0 0 0 0 0x1E#6
  | .ddivu => rFormat 0 0 0 0 0x1F#6
  | .dadd => rFormat 0 0 0 0 0x2C#6
  | .daddu => rFormat 0 0 0 0 0x2D#6
  | .dsub => rFormat 0 0 0 0 0x2E#6
  | .dsubu => rFormat 0 0 0 0 0x2F#6
  | .dsll => rFormat 0 0 0 0 0x38#6
  | .dsrl => rFormat 0 0 0 0 0x3A#6
  | .dsra => rFormat 0 0 0 0 0x3B#6
  | .dsll32 => rFormat 0 0 0 0 0x3C#6
  | .dsrl32 => rFormat 0 0 0 0 0x3E#6
  | .dsra32 => rFormat 0 0 0 0 0x3F#6
  | .dmfc0 => cop0MoveFormat 0x01#5 0 0
  | .dmtc0 => cop0MoveFormat 0x05#5 0 0
  | .rfe => cop0FunctionFormat 0x10#6
  | .deret => cop0FunctionFormat 0x1F#6
  | .wait => cop0FunctionFormat 0x20#6

/-! ### The rows of the opcode table, for the claims: no definition of the decoder or encoder reads them -/

/-- The class of a row of spec/opcode_table.json (30_encoding.md R168, R169). -/
inductive RowClass where
  | insn
  | cpu
  | reserved
  deriving DecidableEq, Repr

/-- A row: a word selects it when `w &&& mask = pattern` (30_encoding.md R173). -/
structure Row where
  mask    : Word
  pattern : Word
  cls     : RowClass
  deriving DecidableEq, Repr

/-- Whether a word selects a row. -/
def Row.selects (r : Row) (w : Word) : Prop := w &&& r.mask = r.pattern

/-- The row of an instruction, as the table gives it. -/
def Instr.row : Instr → Row
  | .add .. => ⟨0xFC00003F, 0x00000020, .insn⟩
  | .addu .. => ⟨0xFC00003F, 0x00000021, .insn⟩
  | .sub .. => ⟨0xFC00003F, 0x00000022, .insn⟩
  | .subu .. => ⟨0xFC00003F, 0x00000023, .insn⟩
  | .and .. => ⟨0xFC00003F, 0x00000024, .insn⟩
  | .or .. => ⟨0xFC00003F, 0x00000025, .insn⟩
  | .xor .. => ⟨0xFC00003F, 0x00000026, .insn⟩
  | .nor .. => ⟨0xFC00003F, 0x00000027, .insn⟩
  | .slt .. => ⟨0xFC00003F, 0x0000002A, .insn⟩
  | .sltu .. => ⟨0xFC00003F, 0x0000002B, .insn⟩
  | .addi .. => ⟨0xFC000000, 0x20000000, .insn⟩
  | .addiu .. => ⟨0xFC000000, 0x24000000, .insn⟩
  | .slti .. => ⟨0xFC000000, 0x28000000, .insn⟩
  | .sltiu .. => ⟨0xFC000000, 0x2C000000, .insn⟩
  | .andi .. => ⟨0xFC000000, 0x30000000, .insn⟩
  | .ori .. => ⟨0xFC000000, 0x34000000, .insn⟩
  | .xori .. => ⟨0xFC000000, 0x38000000, .insn⟩
  | .lui .. => ⟨0xFC000000, 0x3C000000, .insn⟩
  | .sll .. => ⟨0xFC00003F, 0x00000000, .insn⟩
  | .srl .. => ⟨0xFC00003F, 0x00000002, .insn⟩
  | .sra .. => ⟨0xFC00003F, 0x00000003, .insn⟩
  | .sllv .. => ⟨0xFC00003F, 0x00000004, .insn⟩
  | .srlv .. => ⟨0xFC00003F, 0x00000006, .insn⟩
  | .srav .. => ⟨0xFC00003F, 0x00000007, .insn⟩
  | .mult .. => ⟨0xFC00003F, 0x00000018, .insn⟩
  | .multu .. => ⟨0xFC00003F, 0x00000019, .insn⟩
  | .div .. => ⟨0xFC00003F, 0x0000001A, .insn⟩
  | .divu .. => ⟨0xFC00003F, 0x0000001B, .insn⟩
  | .mfhi .. => ⟨0xFC00003F, 0x00000010, .insn⟩
  | .mflo .. => ⟨0xFC00003F, 0x00000012, .insn⟩
  | .mthi .. => ⟨0xFC00003F, 0x00000011, .insn⟩
  | .mtlo .. => ⟨0xFC00003F, 0x00000013, .insn⟩
  | .lb .. => ⟨0xFC000000, 0x80000000, .insn⟩
  | .lbu .. => ⟨0xFC000000, 0x90000000, .insn⟩
  | .lh .. => ⟨0xFC000000, 0x84000000, .insn⟩
  | .lhu .. => ⟨0xFC000000, 0x94000000, .insn⟩
  | .lw .. => ⟨0xFC000000, 0x8C000000, .insn⟩
  | .sb .. => ⟨0xFC000000, 0xA0000000, .insn⟩
  | .sh .. => ⟨0xFC000000, 0xA4000000, .insn⟩
  | .sw .. => ⟨0xFC000000, 0xAC000000, .insn⟩
  | .beq .. => ⟨0xFC000000, 0x10000000, .insn⟩
  | .bne .. => ⟨0xFC000000, 0x14000000, .insn⟩
  | .blez .. => ⟨0xFC000000, 0x18000000, .insn⟩
  | .bgtz .. => ⟨0xFC000000, 0x1C000000, .insn⟩
  | .bltz .. => ⟨0xFC1F0000, 0x04000000, .insn⟩
  | .bgez .. => ⟨0xFC1F0000, 0x04010000, .insn⟩
  | .bltzal .. => ⟨0xFC1F0000, 0x04100000, .insn⟩
  | .bgezal .. => ⟨0xFC1F0000, 0x04110000, .insn⟩
  | .j .. => ⟨0xFC000000, 0x08000000, .insn⟩
  | .jal .. => ⟨0xFC000000, 0x0C000000, .insn⟩
  | .jr .. => ⟨0xFC00003F, 0x00000008, .insn⟩
  | .jalr .. => ⟨0xFC00003F, 0x00000009, .insn⟩
  | .syscall .. => ⟨0xFC00003F, 0x0000000C, .insn⟩
  | .brk .. => ⟨0xFC00003F, 0x0000000D, .insn⟩
  | .tge .. => ⟨0xFC00003F, 0x00000030, .insn⟩
  | .tgeu .. => ⟨0xFC00003F, 0x00000031, .insn⟩
  | .tlt .. => ⟨0xFC00003F, 0x00000032, .insn⟩
  | .tltu .. => ⟨0xFC00003F, 0x00000033, .insn⟩
  | .teq .. => ⟨0xFC00003F, 0x00000034, .insn⟩
  | .tne .. => ⟨0xFC00003F, 0x00000036, .insn⟩
  | .tgei .. => ⟨0xFC1F0000, 0x04080000, .insn⟩
  | .tgeiu .. => ⟨0xFC1F0000, 0x04090000, .insn⟩
  | .tlti .. => ⟨0xFC1F0000, 0x040A0000, .insn⟩
  | .tltiu .. => ⟨0xFC1F0000, 0x040B0000, .insn⟩
  | .teqi .. => ⟨0xFC1F0000, 0x040C0000, .insn⟩
  | .tnei .. => ⟨0xFC1F0000, 0x040E0000, .insn⟩
  | .mtc0 .. => ⟨0xFFE00000, 0x40800000, .insn⟩
  | .mfc0 .. => ⟨0xFFE00000, 0x40000000, .insn⟩
  | .eret => ⟨0xFE00003F, 0x42000018, .insn⟩
  | .sync => ⟨0xFC00003F, 0x0000000F, .insn⟩
  | .cache .. => ⟨0xFC000000, 0xBC000000, .insn⟩
  | .tlbr => ⟨0xFE00003F, 0x42000001, .insn⟩
  | .tlbwi => ⟨0xFE00003F, 0x42000002, .insn⟩
  | .tlbwr => ⟨0xFE00003F, 0x42000006, .insn⟩
  | .tlbp => ⟨0xFE00003F, 0x42000008, .insn⟩
  | .cop1 => ⟨0xFC000000, 0x44000000, .cpu⟩
  | .cop2 => ⟨0xFC000000, 0x48000000, .cpu⟩
  | .cop3 => ⟨0xFC000000, 0x4C000000, .cpu⟩
  | .lwc1 => ⟨0xFC000000, 0xC4000000, .cpu⟩
  | .lwc2 => ⟨0xFC000000, 0xC8000000, .cpu⟩
  | .ldc1 => ⟨0xFC000000, 0xD4000000, .cpu⟩
  | .ldc2 => ⟨0xFC000000, 0xD8000000, .cpu⟩
  | .swc1 => ⟨0xFC000000, 0xE4000000, .cpu⟩
  | .swc2 => ⟨0xFC000000, 0xE8000000, .cpu⟩
  | .sdc1 => ⟨0xFC000000, 0xF4000000, .cpu⟩
  | .sdc2 => ⟨0xFC000000, 0xF8000000, .cpu⟩
  | .beql => ⟨0xFC000000, 0x50000000, .reserved⟩
  | .bnel => ⟨0xFC000000, 0x54000000, .reserved⟩
  | .blezl => ⟨0xFC000000, 0x58000000, .reserved⟩
  | .bgtzl => ⟨0xFC000000, 0x5C000000, .reserved⟩
  | .daddi => ⟨0xFC000000, 0x60000000, .reserved⟩
  | .daddiu => ⟨0xFC000000, 0x64000000, .reserved⟩
  | .ldl => ⟨0xFC000000, 0x68000000, .reserved⟩
  | .ldr => ⟨0xFC000000, 0x6C000000, .reserved⟩
  | .special2 => ⟨0xFC000000, 0x70000000, .reserved⟩
  | .special3 => ⟨0xFC000000, 0x7C000000, .reserved⟩
  | .lwl => ⟨0xFC000000, 0x88000000, .reserved⟩
  | .lwr => ⟨0xFC000000, 0x98000000, .reserved⟩
  | .lwu => ⟨0xFC000000, 0x9C000000, .reserved⟩
  | .swl => ⟨0xFC000000, 0xA8000000, .reserved⟩
  | .sdl => ⟨0xFC000000, 0xB0000000, .reserved⟩
  | .sdr => ⟨0xFC000000, 0xB4000000, .reserved⟩
  | .swr => ⟨0xFC000000, 0xB8000000, .reserved⟩
  | .ll => ⟨0xFC000000, 0xC0000000, .reserved⟩
  | .pref => ⟨0xFC000000, 0xCC000000, .reserved⟩
  | .lld => ⟨0xFC000000, 0xD0000000, .reserved⟩
  | .ld => ⟨0xFC000000, 0xDC000000, .reserved⟩
  | .sc => ⟨0xFC000000, 0xE0000000, .reserved⟩
  | .swc3 => ⟨0xFC000000, 0xEC000000, .reserved⟩
  | .scd => ⟨0xFC000000, 0xF0000000, .reserved⟩
  | .sd => ⟨0xFC000000, 0xFC000000, .reserved⟩
  | .bltzl => ⟨0xFC1F0000, 0x04020000, .reserved⟩
  | .bgezl => ⟨0xFC1F0000, 0x04030000, .reserved⟩
  | .bltzall => ⟨0xFC1F0000, 0x04120000, .reserved⟩
  | .bgezall => ⟨0xFC1F0000, 0x04130000, .reserved⟩
  | .movci => ⟨0xFC00003F, 0x00000001, .reserved⟩
  | .movz => ⟨0xFC00003F, 0x0000000A, .reserved⟩
  | .movn => ⟨0xFC00003F, 0x0000000B, .reserved⟩
  | .dsllv => ⟨0xFC00003F, 0x00000014, .reserved⟩
  | .dsrlv => ⟨0xFC00003F, 0x00000016, .reserved⟩
  | .dsrav => ⟨0xFC00003F, 0x00000017, .reserved⟩
  | .dmult => ⟨0xFC00003F, 0x0000001C, .reserved⟩
  | .dmultu => ⟨0xFC00003F, 0x0000001D, .reserved⟩
  | .ddiv => ⟨0xFC00003F, 0x0000001E, .reserved⟩
  | .ddivu => ⟨0xFC00003F, 0x0000001F, .reserved⟩
  | .dadd => ⟨0xFC00003F, 0x0000002C, .reserved⟩
  | .daddu => ⟨0xFC00003F, 0x0000002D, .reserved⟩
  | .dsub => ⟨0xFC00003F, 0x0000002E, .reserved⟩
  | .dsubu => ⟨0xFC00003F, 0x0000002F, .reserved⟩
  | .dsll => ⟨0xFC00003F, 0x00000038, .reserved⟩
  | .dsrl => ⟨0xFC00003F, 0x0000003A, .reserved⟩
  | .dsra => ⟨0xFC00003F, 0x0000003B, .reserved⟩
  | .dsll32 => ⟨0xFC00003F, 0x0000003C, .reserved⟩
  | .dsrl32 => ⟨0xFC00003F, 0x0000003E, .reserved⟩
  | .dsra32 => ⟨0xFC00003F, 0x0000003F, .reserved⟩
  | .dmfc0 => ⟨0xFFE00000, 0x40200000, .reserved⟩
  | .dmtc0 => ⟨0xFFE00000, 0x40A00000, .reserved⟩
  | .rfe => ⟨0xFE00003F, 0x42000010, .reserved⟩
  | .deret => ⟨0xFE00003F, 0x4200001F, .reserved⟩
  | .wait => ⟨0xFE00003F, 0x42000020, .reserved⟩

end Sys2Proof
end

