-- ==== Sys2Proof/Machine/Flags.lean ====
section
/-! DEFINITION. The hardware has no flags (10_state.md R36). What stands in their place: the overflow test of ADD, SUB
and ADDI, and the comparisons of SLT and its kin, of the branches and of the traps. -/

namespace Sys2Proof.Machine

/-- Whether an exact integer does not fit 32 bits as a signed number (40_alu.md R225). -/
def signedOverflow (exact : Int) : Bool := decide (exact < -2 ^ 31) || decide (2 ^ 31 - 1 < exact)

/-- signed(a) + signed(b) does not fit (40_alu.md R225). -/
def addOverflows (a b : Word) : Bool := signedOverflow (a.toInt + b.toInt)

/-- signed(a) - signed(b) does not fit (40_alu.md R225). -/
def subOverflows (a b : Word) : Bool := signedOverflow (a.toInt - b.toInt)

/-- `<s`, the signed comparison (00_scope.md R17). -/
def ltSigned (a b : Word) : Bool := decide (a.toInt < b.toInt)

/-- `<u`, the unsigned comparison (00_scope.md R17). -/
def ltUnsigned (a b : Word) : Bool := decide (a.toNat < b.toNat)

end Sys2Proof.Machine
end

