-- ==== Sys2Proof/Config.lean ====
section
/-! DEFINITION. What a construction of the machine fixes (00_scope.md section 4), as plain data, and the free values
the spec calls draws. `Params` is held in the state, where no step changes it, so that a statement about every
state is a statement about every construction (log 1). -/

namespace Sys2Proof

/-- The kinds of access `Translate` tells apart (20_memory.md R110). -/
inductive AccessKind where
  | fetch
  | load
  | store
  deriving DecidableEq, Repr

/-- What `tlbLookup` answers for one virtual address (00_scope.md R12, 20_memory.md R114). -/
inductive TlbAnswer where
  | hit (pa : Word)
  | refill
  | invalid
  | modified
  deriving DecidableEq, Repr

/-- One row of the table that stands for `tlbLookup`: the virtual addresses `first` to `last` for one kind of access.
A `hit` row names the physical address of `first`; the addresses after it follow on. Such tables express every
function from an address and a kind to an answer, and are plain data (log 2). -/
structure TlbRange where
  first  : Word
  last   : Word
  kind   : AccessKind
  answer : TlbAnswer
  deriving DecidableEq, Repr

/-! The MMIO layout parameters of 20_memory.md R128: a register's offset in its window, a flag's bit position. -/

/-- MI_MODE_OFF, MI_VERSION_OFF, MI_INTR_OFF, MI_INTR_MASK_OFF. -/
structure MiLayout where
  mode     : Nat
  version  : Nat
  intr     : Nat
  intrMask : Nat
  deriving DecidableEq, Repr

/-- SP_STATUS_OFF, SP_CMD_START_OFF, SP_ACK_BIT, SP_START_BIT. -/
structure SpLayout where
  status   : Nat
  cmdStart : Nat
  ackBit   : Fin 32
  startBit : Fin 32
  deriving DecidableEq, Repr

/-- DP_STATUS_OFF, DP_PIPE_BUSY_BIT, DP_BUSY_BIT, DP_ACK_BIT. -/
structure DpLayout where
  status      : Nat
  pipeBusyBit : Fin 32
  busyBit     : Fin 32
  ackBit      : Fin 32
  deriving DecidableEq, Repr

/-- VI_ORIGIN_OFF, VI_WIDTH_OFF, VI_STATUS_OFF, VI_ACK_BIT. -/
structure ViLayout where
  origin : Nat
  width  : Nat
  status : Nat
  ackBit : Fin 32
  deriving DecidableEq, Repr

/-- AI_DRAM_ADDR_OFF, AI_LEN_OFF, AI_STATUS_OFF, AI_BUSY_BIT, AI_ACK_BIT. -/
structure AiLayout where
  dramAddr : Nat
  len      : Nat
  status   : Nat
  busyBit  : Fin 32
  ackBit   : Fin 32
  deriving DecidableEq, Repr

/-- PI_DRAM_ADDR_OFF, PI_CART_ADDR_OFF, PI_RD_LEN_OFF, PI_WR_LEN_OFF, PI_STATUS_OFF, PI_DMA_BUSY_BIT, PI_IO_BUSY_BIT. -/
structure PiLayout where
  dramAddr   : Nat
  cartAddr   : Nat
  rdLen      : Nat
  wrLen      : Nat
  status     : Nat
  dmaBusyBit : Fin 32
  ioBusyBit  : Fin 32
  deriving DecidableEq, Repr

/-- SI_DRAM_ADDR_OFF, SI_PIF_RD_OFF, SI_PIF_WR_OFF, SI_STATUS_OFF, SI_ACK_BIT. -/
structure SiLayout where
  dramAddr : Nat
  pifRd    : Nat
  pifWr    : Nat
  status   : Nat
  ackBit   : Fin 32
  deriving DecidableEq, Repr

/-- The layout of all seven banks. -/
structure MmioLayout where
  mi : MiLayout
  sp : SpLayout
  dp : DpLayout
  vi : ViLayout
  ai : AiLayout
  pi : PiLayout
  si : SiLayout
  deriving DecidableEq, Repr

/-- The construction parameters: ramSize (00_scope.md R10), countDivisor (R11), tlbMode and tlbLookup (R12), and the
MMIO layout (R14; 20_memory.md R128). -/
structure Params where
  ramSize      : Nat
  countDivisor : Nat
  tlbMode      : Bool
  tlb          : List TlbRange
  layout       : MmioLayout
  deriving DecidableEq, Repr

/-- FREE VALUE. The n-th word drawn from `divByZero` (00_scope.md R14; 41_muldiv.md R249): any 32-bit value (log 3). -/
opaque Config.divByZero : Nat → Word

/-- FREE VALUE. The n-th draw from `miMaskConflict` (00_scope.md R14; 60_exceptions.md R443): bit i is the value of a
mask bit i that one write both sets and clears (log 4). -/
opaque Config.miMaskConflict : Nat → BitVec 16

end Sys2Proof
end

