-- ==== Sys2Proof/Machine/Layout.lean ====
section
/-! DEFINITION. The MMIO registers of 20_memory.md R128: the bank each is in, the parameter that gives its offset, and
the default values of the parameters. -/

namespace Sys2Proof.Machine

/-- The seven MMIO banks (20_memory.md R123). -/
inductive Bank where
  | sp
  | dp
  | mi
  | vi
  | ai
  | pi
  | si
  deriving DecidableEq, Repr

/-- The registers of 20_memory.md R128. -/
inductive MmioReg where
  | miMode | miVersion | miIntr | miIntrMask
  | spStatus | spCmdStart
  | dpStatus
  | viOrigin | viWidth | viStatus
  | aiDramAddr | aiLen | aiStatus
  | piDramAddr | piCartAddr | piRdLen | piWrLen | piStatus
  | siDramAddr | siPifRd | siPifWr | siStatus
  deriving DecidableEq, Repr

/-- The registers of a bank, in the order of the table of R128. -/
def bankRegs : Bank → List MmioReg
  | .mi => [.miMode, .miVersion, .miIntr, .miIntrMask]
  | .sp => [.spStatus, .spCmdStart]
  | .dp => [.dpStatus]
  | .vi => [.viOrigin, .viWidth, .viStatus]
  | .ai => [.aiDramAddr, .aiLen, .aiStatus]
  | .pi => [.piDramAddr, .piCartAddr, .piRdLen, .piWrLen, .piStatus]
  | .si => [.siDramAddr, .siPifRd, .siPifWr, .siStatus]

/-- The offset of a register in its window (20_memory.md R128). -/
def MmioReg.offset (l : MmioLayout) : MmioReg → Nat
  | .miMode => l.mi.mode
  | .miVersion => l.mi.version
  | .miIntr => l.mi.intr
  | .miIntrMask => l.mi.intrMask
  | .spStatus => l.sp.status
  | .spCmdStart => l.sp.cmdStart
  | .dpStatus => l.dp.status
  | .viOrigin => l.vi.origin
  | .viWidth => l.vi.width
  | .viStatus => l.vi.status
  | .aiDramAddr => l.ai.dramAddr
  | .aiLen => l.ai.len
  | .aiStatus => l.ai.status
  | .piDramAddr => l.pi.dramAddr
  | .piCartAddr => l.pi.cartAddr
  | .piRdLen => l.pi.rdLen
  | .piWrLen => l.pi.wrLen
  | .piStatus => l.pi.status
  | .siDramAddr => l.si.dramAddr
  | .siPifRd => l.si.pifRd
  | .siPifWr => l.si.pifWr
  | .siStatus => l.si.status

/-- The register at a word offset of a bank; an offset that no parameter gives names none (20_memory.md R124, R128).
In a well-formed layout at most one register has it, else the first of the table answers (log 6). -/
def mmioReg (l : MmioLayout) (bank : Bank) (offset : Nat) : Option MmioReg :=
  (bankRegs bank).find? fun r => r.offset l == offset

/-- The default value of every layout parameter (20_memory.md R128). -/
def defaultLayout : MmioLayout :=
  { mi := { mode := 0x00, version := 0x04, intr := 0x08, intrMask := 0x0C }
    sp := { status := 0x40010, cmdStart := 0x40020, ackBit := 3, startBit := 0 }
    dp := { status := 0x0C, pipeBusyBit := 5, busyBit := 6, ackBit := 6 }
    vi := { origin := 0x04, width := 0x08, status := 0x10, ackBit := 0 }
    ai := { dramAddr := 0x00, len := 0x04, status := 0x0C, busyBit := 30, ackBit := 30 }
    pi := { dramAddr := 0x00, cartAddr := 0x04, rdLen := 0x08, wrLen := 0x0C, status := 0x10, dmaBusyBit := 0, ioBusyBit := 1 }
    si := { dramAddr := 0x00, pifRd := 0x04, pifWr := 0x10, status := 0x18, ackBit := 0 } }

end Sys2Proof.Machine
end

