-- ==== Sys2Proof/Machine/Memory.lean ====
section
/-! DEFINITION. Byte memory as plain data, in one canonical form: addresses strictly rising, and no entry that holds 0,
which is what an unlisted address reads as (10_state.md R79: every byte of RAM and PIF RAM is 0 at construction). -/

namespace Sys2Proof.Machine

/-- Sparse memory: (address, byte) pairs. RAM is keyed by physical address (10_state.md R74), PIF RAM by its index
(10_state.md R72). -/
abbrev Memory := List Host.Cell

/-- What an address with no entry reads as (10_state.md R79). -/
def unlistedByte : Byte := 0

/-- The canonical form: equal memories are equal lists. -/
abbrev Memory.wf (m : Memory) : Prop :=
  m.Pairwise (fun c d => c.1 < d.1) ∧ ∀ c ∈ m, c.2 ≠ unlistedByte

/-- Every listed address is below `limit`. -/
abbrev Memory.below (m : Memory) (limit : Nat) : Prop := ∀ c ∈ m, c.1 < limit

/-- The byte at an address. -/
def Memory.read : Memory → Nat → Byte
  | [], _ => unlistedByte
  | (a, b) :: rest, k => if a = k then b else Memory.read rest k

/-- `consByte k v m` puts an entry in front of `m`, or none when `v` is what an unlisted address reads as. -/
def Memory.consByte (k : Nat) (v : Byte) (m : Memory) : Memory :=
  if v = unlistedByte then m else (k, v) :: m

/-- Writing one byte; the canonical form is kept. -/
def Memory.write : Memory → Nat → Byte → Memory
  | [], k, v => Memory.consByte k v []
  | (a, b) :: rest, k, v =>
    if k < a then Memory.consByte k v ((a, b) :: rest)
    else if k = a then Memory.consByte k v rest
    else (a, b) :: Memory.write rest k v

/-- `copy m base f n` writes the bytes `f 0`, …, `f (n - 1)` at `base`, …, `base + n - 1`, in increasing order: the
loop of a DMA transfer (60_exceptions.md R461, R464, R465). -/
def Memory.copy (m : Memory) (base : Nat) (f : Nat → Byte) : Nat → Memory
  | 0 => m
  | n + 1 => Memory.write (Memory.copy m base f n) (base + n) (f n)

/-- The widths of a data access (20_memory.md R102, R105). -/
inductive Width where
  | byte
  | half
  | word
  deriving DecidableEq, Repr

/-- The number of bytes of an access. -/
def Width.bytes : Width → Nat
  | .byte => 1
  | .half => 2
  | .word => 4

/-- A big-endian read of the bytes at `a`, zero-extended to 32 bits (20_memory.md R100, R121). -/
def Memory.readWide (m : Memory) (a : Nat) : Width → Word
  | .byte => (m.read a).setWidth 32
  | .half => (m.read a ++ m.read (a + 1)).setWidth 32
  | .word => m.read a ++ m.read (a + 1) ++ m.read (a + 2) ++ m.read (a + 3)

/-- A big-endian write of the low bytes of `v` at `a` (20_memory.md R100, R121). -/
def Memory.writeWide (m : Memory) (a : Nat) (v : Word) : Width → Memory
  | .byte => m.write a (v.extractLsb' 0 8)
  | .half => (m.write a (v.extractLsb' 8 8)).write (a + 1) (v.extractLsb' 0 8)
  | .word =>
    (((m.write a (v.extractLsb' 24 8)).write (a + 1) (v.extractLsb' 16 8)).write (a + 2) (v.extractLsb' 8 8)).write
      (a + 3) (v.extractLsb' 0 8)

end Sys2Proof.Machine
end

