-- ==== Sys2Proof/Machine/State.lean ====
section
/-! DEFINITION. All the state the spec gives the machine (10_state.md), as plain data, the reasons a step can stop,
and the state at construction. INVENTORY.md lists every field with its rule and reset value. -/

namespace Sys2Proof.Machine

/-! ### Reasons to stop -/

/-- A reason the hardware itself stops. There is none: "Nothing in this spec is stuck" (93_implementation_defined.md
section 2), and every exception is entered, which is a next state. So no constructor. -/
inductive Fault where
  deriving DecidableEq, Repr

/-- Why the model gives a step no next state. All are the spec's own `refuse(…)` marks (00_scope.md R20), but the
first. Each is safe: the model stops where the hardware's behaviour is not stated. -/
inductive Refusal where
  /-- Raised by `exec` for an instruction that has no meaning yet (none). Safe. -/
  | notModelled (mnemonic : String)
  /-- Raised by a branch, a jump or ERET executed in a delay slot (42_branch.md R265; 92_eei_decisions.md D17). Safe. -/
  | delaySlotControl
  /-- Raised by TLBR, TLBWI, TLBWR, TLBP (44_system.md R339 to R342; 92_eei_decisions.md D26). Safe. -/
  | tlbOpBehaviour
  /-- Raised by a fetch or load for which tlbLookup answers Modified (20_memory.md R114). Safe. -/
  | tlbLookupModifiedOnRead
  /-- Raised by a step of a machine that has refused before: "if refused: no step" (42_branch.md R260; 10_state.md R77).
  Safe. -/
  | alreadyRefused
  deriving DecidableEq, Repr

/-! ### The host operations, as data (60_exceptions.md section 10): a scheduler callback is a list of them -/

/-- The six peripheral controllers (00_scope.md R24). -/
inductive Controller where
  | sp
  | si
  | ai
  | vi
  | pi
  | dp
  deriving DecidableEq, Repr

mutual
/-- The host operations (60_exceptions.md R471, R472, R475 to R481; log 15). -/
inductive HostOp where
  | step
  | getPc
  | setPc (v : Word)
  | getReg (r : RegNum)
  | setReg (r : RegNum) (v : Word)
  | cop0Read (n : RegNum)
  | cop0Write (n : RegNum) (v : Word)
  | load (w : Width) (va : Word)
  | store (w : Width) (va v : Word)
  | peekRam (a : Nat)
  | pokeRam (a : Nat) (b : Byte)
  | setRom (bytes : List Byte)
  | spKick
  | dpRaiseInterrupt
  | viVblank
  | aiCompleteDma
  | piCompleteDma
  | siKickRead64B
  | siKickWrite64B
  | raise (c : Controller)
  | clear (c : Controller)
  | scheduleAt (cycle : Nat) (callback : Callback)
  | scheduleEvery (start interval times : Nat) (callback : Callback)
  deriving DecidableEq, Repr

/-- A callback: "a sequence of host operations" (10_state.md R76). -/
inductive Callback where
  | done
  | andThen (op : HostOp) (rest : Callback)
  deriving DecidableEq, Repr
end

/-! ### The parts of the state -/

/-- The pending-branch slot (10_state.md R34). -/
structure Pending where
  target : Word
  valid  : Bool
  deriving DecidableEq, Repr

/-- The COP0 registers (10_state.md R40 to R61); Cause is held as its stored parts (R53), and IP2 is live. -/
structure Cop0 where
  index      : Word
  context    : Word
  badVAddr   : Word
  count      : Word
  countPhase : Nat
  compare    : Word
  status     : Word
  excCode    : BitVec 5
  bd         : Bool
  ip7        : Bool
  swIP       : BitVec 2
  epc        : Word
  deriving DecidableEq, Repr

/-- The interrupt aggregator (10_state.md R65, R66). -/
structure MiRegs where
  pending : Word
  mask    : Word
  deriving DecidableEq, Repr

/-- The display processor (10_state.md R68). -/
structure DpRegs where
  busy     : Bool
  pipeBusy : Bool
  deriving DecidableEq, Repr

/-- The video interface (10_state.md R69). -/
structure ViRegs where
  origin : Word
  width  : Word
  deriving DecidableEq, Repr

/-- The audio interface (10_state.md R70). -/
structure AiRegs where
  dramAddr : Word
  len      : Word
  dmaBusy  : Bool
  deriving DecidableEq, Repr

/-- The cartridge interface (10_state.md R71); `len` is the descriptor length, one less than the byte count. -/
structure PiRegs where
  dramAddr : Word
  cartAddr : Word
  rdLen    : Word
  wrLen    : Word
  len      : Word
  dmaBusy  : Bool
  ioBusy   : Bool
  deriving DecidableEq, Repr

/-- The serial interface and its 64 bytes of PIF RAM (10_state.md R72). -/
structure SiRegs where
  dramAddr : Word
  pifRd    : Word
  pifWr    : Word
  pif      : Memory
  deriving DecidableEq, Repr

/-- MI and the peripheral register banks. SP has no register (10_state.md R67); `spStarts` counts its output event
SpStart (60_exceptions.md R450; log 9). -/
structure Devices where
  mi       : MiRegs
  dp       : DpRegs
  vi       : ViRegs
  ai       : AiRegs
  pi       : PiRegs
  si       : SiRegs
  spStarts : Nat
  deriving DecidableEq, Repr

/-- A scheduled event: its cycle and its callback (10_state.md R76). -/
structure Event where
  cycle    : Nat
  callback : Callback
  deriving DecidableEq, Repr

/-- The scheduler (10_state.md R75, R76); events stand in the order they were registered. -/
structure Sched where
  cycle  : Nat
  events : List Event
  deriving DecidableEq, Repr

/-- The machine's state. -/
structure State where
  /-- x[0] to x[31]; read and written only through `readReg` and `writeReg`, which make x[0] read 0 (10_state.md R31). -/
  regs    : Vector Word 32
  hi      : Word
  lo      : Word
  pc      : Word
  pend    : Pending
  cp0     : Cop0
  ram     : Memory
  dev     : Devices
  rom     : List Byte
  sched   : Sched
  /-- The construction parameters, which no step changes (log 1). -/
  params  : Params
  /-- The number of free values drawn so far: the model's own field (log 3). -/
  draws   : Nat
  /-- The refusal mark (10_state.md R77). -/
  refused : Bool
  deriving DecidableEq, Repr

/-! ### One setter a field, so that proofs need no record update unfolded (Laws/State.lean) -/

def State.setRegs (s : State) (v : Vector Word 32) : State := { s with regs := v }
def State.setHi (s : State) (v : Word) : State := { s with hi := v }
def State.setLo (s : State) (v : Word) : State := { s with lo := v }
def State.setPc (s : State) (v : Word) : State := { s with pc := v }
def State.setPend (s : State) (v : Pending) : State := { s with pend := v }
def State.setCp0 (s : State) (v : Cop0) : State := { s with cp0 := v }
def State.setRam (s : State) (v : Memory) : State := { s with ram := v }
def State.setDev (s : State) (v : Devices) : State := { s with dev := v }
def State.setRom (s : State) (v : List Byte) : State := { s with rom := v }
def State.setSched (s : State) (v : Sched) : State := { s with sched := v }
def State.setDraws (s : State) (v : Nat) : State := { s with draws := v }
def State.setRefused (s : State) (v : Bool) : State := { s with refused := v }

/-! ### Construction -/

/-- The parameters of the constructed machine: divisor 1 by default (10_state.md R79); the RAM size of the spec's own
vectors and no TLB are DESIGN CHOICE (log 1); the layout is the default of 20_memory.md R128 (log 6). -/
def Params.atReset : Params :=
  { ramSize := 0x00400000, countDivisor := 1, tlbMode := false, tlb := [], layout := defaultLayout }

/-- COP0 at construction (10_state.md R79). -/
def Cop0.atReset : Cop0 :=
  { index := 0, context := 0, badVAddr := 0, count := 0, countPhase := 0, compare := 0, status := 0, excCode := 0,
    bd := false, ip7 := false, swIP := 0, epc := 0 }

/-- MI and the controllers at construction (10_state.md R79). -/
def Devices.atReset : Devices :=
  { mi := { pending := 0, mask := 0 }
    dp := { busy := false, pipeBusy := false }
    vi := { origin := 0, width := 0 }
    ai := { dramAddr := 0, len := 0, dmaBusy := false }
    pi := { dramAddr := 0, cartAddr := 0, rdLen := 0, wrLen := 0, len := 0, dmaBusy := false, ioBusy := false }
    si := { dramAddr := 0, pifRd := 0, pifWr := 0, pif := [] }
    spStarts := 0 }

/-- The machine at construction, its one initial state (10_state.md R79; 70_reset_and_hazards.md R500). -/
def State.reset : State :=
  { regs := Vector.replicate 32 0
    hi := 0
    lo := 0
    pc := 0
    pend := { target := 0, valid := false }
    cp0 := Cop0.atReset
    ram := []
    dev := Devices.atReset
    rom := []
    sched := { cycle := 0, events := [] }
    params := Params.atReset
    draws := 0
    refused := false }

end Sys2Proof.Machine
end

