-- ==== Sys2Proof/Machine/Ops.lean ====
section
/-! DEFINITION. The shared operations over registers and control state: the register file, the fields of Status and
Cause, taking an exception and returning from one, the commit of a step, the interrupt check and the Count tick. -/

namespace Sys2Proof.Machine

/-- The outcome of a step or of a meaning. -/
abbrev Result := Host.Outcome State Fault Refusal

/-! ### General registers -/

/-- Reading x[r]; x[0] always reads 0 (10_state.md R31). -/
def readReg (s : State) (r : RegNum) : Word :=
  if r = 0 then 0 else s.regs[r.toNat]'(by have := r.isLt; omega)

/-- Writing x[r]; a write to x[0] is discarded (10_state.md R31). -/
def writeReg (s : State) (r : RegNum) (v : Word) : State :=
  if r = 0 then s else s.setRegs (s.regs.set r.toNat v (by have := r.isLt; omega))

/-! ### Status and Cause -/

/-- Status.IE (10_state.md R48). -/
def Cop0.ie (c : Cop0) : Bool := c.status.getLsbD 0
/-- Status.EXL (10_state.md R49). -/
def Cop0.exl (c : Cop0) : Bool := c.status.getLsbD 1
/-- Status.IMn (10_state.md R50). -/
def Cop0.im (c : Cop0) (n : Nat) : Bool := c.status.getLsbD (8 + n)
/-- Status.BEV (10_state.md R51). -/
def Cop0.bev (c : Cop0) : Bool := c.status.getLsbD 22

/-- Status.EXL alone, as a mask (10_state.md R47). -/
def exlBit : Word := 0x00000002

/-- MI.cpuIntAsserted(), which is Cause.IP2 (60_exceptions.md R441; 10_state.md R56). -/
def cpuIntAsserted (mi : MiRegs) : Bool := mi.pending &&& mi.mask != 0

/-- The read value of Cause, field by field from bit 31 down (10_state.md R53). -/
def causeRead (s : State) : Word :=
  BitVec.ofBool s.cp0.bd ++ 0#15 ++ BitVec.ofBool s.cp0.ip7 ++ 0#4 ++ BitVec.ofBool (cpuIntAsserted s.dev.mi) ++
    s.cp0.swIP ++ 0#1 ++ s.cp0.excCode ++ 0#2

/-! ### Exceptions -/

/-- The exceptions, with the data their entry uses: the attempted address, and whether a TLB fault is of the refill
class (60_exceptions.md R400; 20_memory.md R114). -/
inductive Exc where
  | interrupt
  | tlbModified (va : Word)
  | tlbLoad (va : Word) (refill : Bool)
  | tlbStore (va : Word) (refill : Bool)
  | addressErrorLoad (va : Word)
  | addressErrorStore (va : Word)
  | syscall
  | breakpoint
  | reservedInstruction
  | coprocessorUnusable
  | overflow
  | trap
  deriving DecidableEq, Repr

/-- Cause.ExcCode of an exception (60_exceptions.md R400). -/
def Exc.code : Exc → BitVec 5
  | .interrupt => 0
  | .tlbModified _ => 1
  | .tlbLoad _ _ => 2
  | .tlbStore _ _ => 3
  | .addressErrorLoad _ => 4
  | .addressErrorStore _ => 5
  | .syscall => 8
  | .breakpoint => 9
  | .reservedInstruction => 10
  | .coprocessorUnusable => 11
  | .overflow => 12
  | .trap => 13

/-- The address a TLB exception writes to BadVAddr and Context (60_exceptions.md R413, R414). -/
def Exc.tlbAddress : Exc → Option Word
  | .tlbModified va | .tlbLoad va _ | .tlbStore va _ => some va
  | _ => none

/-- The address written to BadVAddr: address and TLB exceptions only (60_exceptions.md R413). -/
def Exc.badAddress : Exc → Option Word
  | .addressErrorLoad va | .addressErrorStore va => some va
  | e => e.tlbAddress

/-- The refill class (60_exceptions.md R404, R415). -/
def Exc.isRefill : Exc → Bool
  | .tlbLoad _ refill | .tlbStore _ refill => refill
  | _ => false

/-- The vector, chosen from BEV and EXL as they are before the entry (60_exceptions.md R415). -/
def vector (c : Cop0) (e : Exc) : Word :=
  if c.bev then 0xBFC00180
  else if e.isRefill && !c.exl then 0x80000000
  else 0x80000180

/-- Context with BadVPN2 (bits 31:23) from an address and the rest kept (60_exceptions.md R414). -/
def contextWithBadVpn2 (context va : Word) : Word := va.extractLsb' 23 9 ++ context.extractLsb' 0 23

/-- COP0 after an entry: EPC, ExcCode and BD only when EXL was 0 (60_exceptions.md R410 to R414). `a` is the pc at
the start of the step and `inDelay` whether a branch was pending then. -/
def cop0Entered (c : Cop0) (e : Exc) (a : Word) (inDelay : Bool) : Cop0 :=
  { c with
    excCode := if c.exl then c.excCode else e.code
    bd := if c.exl then c.bd else inDelay
    epc := if c.exl then c.epc else if inDelay then a - 4 else a
    badVAddr := e.badAddress.getD c.badVAddr
    context := (e.tlbAddress.map (contextWithBadVpn2 c.context)).getD c.context
    status := c.status ||| exlBit }

/-- The pending-branch slot cleared; its target is kept, unobservably (log 17). -/
def clearPend (s : State) : State := s.setPend { s.pend with valid := false }

/-- TAKING AN EXCEPTION: Enter(E, info, inDelay) of 60_exceptions.md R410. No step writes pc or the pending-branch
slot before it enters, so both still hold their values at the start of the step. -/
def enterException (e : Exc) (s : State) : State :=
  (clearPend (s.setCp0 (cop0Entered s.cp0 e s.pc s.pend.valid))).setPc (vector s.cp0 e)

/-- `raise E` of 00_scope.md R20: the instruction ends in the entry, with no partial effect. -/
def raise (e : Exc) (s : State) : Result := .next (enterException e s)

/-- RETURNING FROM AN EXCEPTION: pc from EPC, EXL cleared, the slot cleared (44_system.md R336). -/
def returnFromException (s : State) : State :=
  (clearPend (s.setCp0 { s.cp0 with status := s.cp0.status &&& ~~~exlBit })).setPc s.cp0.epc

/-! ### The commit of a step (42_branch.md R260, part 5) -/

/-- The commit of an instruction that is no branch, jump or ERET: the stored target after a delay slot
(42_branch.md R263), else pc + 4 (R261). -/
def retire (s : State) : State :=
  if s.pend.valid then (clearPend s).setPc s.pend.target else s.setPc (s.pc + 4)

/-- An instruction that completes with the effect already in `s`. -/
def complete (s : State) : Result := .next (retire s)

/-- The commit of a branch or jump: refused in a delay slot (42_branch.md R265), else the slot is set and pc goes to
the delay slot (R262). -/
def branchTo (target : Word) (s : State) : Result :=
  if s.pend.valid then .refused .delaySlotControl
  else .next ((s.setPend { target := target, valid := true }).setPc (s.pc + 4))

/-! ### Interrupts (60_exceptions.md R420 to R425) -/

/-- eligible(n) (60_exceptions.md R421). -/
def eligible (s : State) (n : Nat) : Bool :=
  s.cp0.ie && !s.cp0.exl && s.cp0.im n && (causeRead s).getLsbD (8 + n)

/-- The source taken: the scan from IP7 down to IP0 (60_exceptions.md R423). -/
def selectedSource (s : State) : Option Nat := [7, 6, 5, 4, 3, 2, 1, 0].find? (eligible s)

/-- InterruptTaken() (60_exceptions.md R421). -/
def interruptTaken (s : State) : Bool := (selectedSource s).isSome

/-! ### The timer -/

/-- The end-of-step tick of COP0 (60_exceptions.md R436, R437). -/
def cop0Ticked (c : Cop0) (divisor : Nat) : Cop0 :=
  if c.countPhase + 1 = divisor then
    { c with countPhase := 0, count := c.count + 1, ip7 := c.ip7 || c.count + 1 == c.compare }
  else { c with countPhase := c.countPhase + 1 }

/-- CountTick() (60_exceptions.md R436). -/
def countTick (s : State) : State := s.setCp0 (cop0Ticked s.cp0 s.params.countDivisor)

/-- A step's outcome with the tick at its end; a refused step does not tick (60_exceptions.md R436). -/
def thenTick : Result → Result
  | .next s => .next (countTick s)
  | .fault f => .fault f
  | .refused r => .refused r

end Sys2Proof.Machine
end

