-- ==== Sys2Proof/Machine/Operands.lean ====
section
/-! DEFINITION. Every operand form of 30_encoding.md R157 to R163, and the effective address of 43_loadstore.md R300. -/

namespace Sys2Proof.Machine

/-- simm = sext_16(imm) (30_encoding.md R158). -/
def simm (imm : Imm16) : Word := imm.signExtend 32

/-- uimm = zext_16(imm) (30_encoding.md R159). -/
def uimm (imm : Imm16) : Word := imm.setWidth 32

/-- The LUI immediate, imm << 16 (30_encoding.md R160). -/
def upperImm (imm : Imm16) : Word := imm ++ 0#16

/-- The target of a taken branch at pcI, pcI + 4 + (sext_16(imm) << 2), modulo 2^32 (30_encoding.md R161). -/
def branchTarget (pcI : Word) (imm : Imm16) : Word := pcI + 4 + (simm imm <<< 2)

/-- The target of J and JAL, inside the 256 MiB region of the delay slot (30_encoding.md R162). -/
def jumpTarget (pcI : Word) (target : BitVec 26) : Word := (pcI + 4).extractLsb' 28 4 ++ target ++ 0#2

/-- The target of a conditional branch: pcI + 8 when it is not taken (42_branch.md R262). -/
def conditionalTarget (pcI : Word) (imm : Imm16) (taken : Bool) : Word :=
  if taken then branchTarget pcI imm else pcI + 8

/-- The address after the delay slot, the link value (42_branch.md R267). -/
def linkAddress (pcI : Word) : Word := pcI + 8

/-- The link register of JAL, BLTZAL and BGEZAL (42_branch.md R267). -/
def linkReg : RegNum := 31

/-- The shift amount of SLLV, SRLV and SRAV: x[rs][4:0] (30_encoding.md R163). -/
def variableShift (v : Word) : Nat := (v.extractLsb' 0 5).toNat

/-- The effective address of a load or store, x[rs] + sext_16(imm) modulo 2^32 (43_loadstore.md R300). -/
def effectiveAddress (s : State) (rs : RegNum) (imm : Imm16) : Word := readReg s rs + simm imm

/-- Whether a data access is aligned (20_memory.md R102). -/
def aligned (va : Word) (w : Width) : Bool := va.toNat % w.bytes == 0

/-- sext_8 of the low byte of a word (43_loadstore.md R302). -/
def signedByte (v : Word) : Word := (v.extractLsb' 0 8).signExtend 32

/-- sext_16 of the low halfword of a word (43_loadstore.md R304). -/
def signedHalf (v : Word) : Word := (v.extractLsb' 0 16).signExtend 32

end Sys2Proof.Machine
end

