-- ==== Sys2Proof/Machine/Alu.lean ====
section
/-! DEFINITION. The meanings of 40_alu.md: register and immediate arithmetic, logic, comparison, shifts. -/

namespace Sys2Proof.Machine

/-- An instruction whose whole effect is one register write and the commit. -/
def writeAndComplete (rd : RegNum) (v : Word) (s : State) : Result := complete (writeReg s rd v)

/-- One that raises Overflow instead when the exact result does not fit (40_alu.md R225). -/
def writeUnlessOverflow (overflows : Bool) (rd : RegNum) (v : Word) (s : State) : Result :=
  if overflows then raise .overflow s else writeAndComplete rd v s

/-! ### Register forms -/

/-- ADD (40_alu.md R200). -/
def execAdd (rd rs rt : RegNum) (s : State) : Result :=
  writeUnlessOverflow (addOverflows (readReg s rs) (readReg s rt)) rd (readReg s rs + readReg s rt) s

/-- ADDU (40_alu.md R201). -/
def execAddu (rd rs rt : RegNum) (s : State) : Result := writeAndComplete rd (readReg s rs + readReg s rt) s

/-- SUB (40_alu.md R202). -/
def execSub (rd rs rt : RegNum) (s : State) : Result :=
  writeUnlessOverflow (subOverflows (readReg s rs) (readReg s rt)) rd (readReg s rs - readReg s rt) s

/-- SUBU (40_alu.md R203). -/
def execSubu (rd rs rt : RegNum) (s : State) : Result := writeAndComplete rd (readReg s rs - readReg s rt) s

/-- AND (40_alu.md R204). -/
def execAnd (rd rs rt : RegNum) (s : State) : Result := writeAndComplete rd (readReg s rs &&& readReg s rt) s

/-- OR (40_alu.md R205). -/
def execOr (rd rs rt : RegNum) (s : State) : Result := writeAndComplete rd (readReg s rs ||| readReg s rt) s

/-- XOR (40_alu.md R206). -/
def execXor (rd rs rt : RegNum) (s : State) : Result := writeAndComplete rd (readReg s rs ^^^ readReg s rt) s

/-- NOR (40_alu.md R207). -/
def execNor (rd rs rt : RegNum) (s : State) : Result := writeAndComplete rd (~~~(readReg s rs ||| readReg s rt)) s

/-- SLT (40_alu.md R208). -/
def execSlt (rd rs rt : RegNum) (s : State) : Result :=
  writeAndComplete rd (flag (ltSigned (readReg s rs) (readReg s rt))) s

/-- SLTU (40_alu.md R209). -/
def execSltu (rd rs rt : RegNum) (s : State) : Result :=
  writeAndComplete rd (flag (ltUnsigned (readReg s rs) (readReg s rt))) s

/-! ### Immediate forms -/

/-- ADDI (40_alu.md R210). -/
def execAddi (rt rs : RegNum) (imm : Imm16) (s : State) : Result :=
  writeUnlessOverflow (addOverflows (readReg s rs) (simm imm)) rt (readReg s rs + simm imm) s

/-- ADDIU (40_alu.md R211). -/
def execAddiu (rt rs : RegNum) (imm : Imm16) (s : State) : Result := writeAndComplete rt (readReg s rs + simm imm) s

/-- SLTI (40_alu.md R212). -/
def execSlti (rt rs : RegNum) (imm : Imm16) (s : State) : Result :=
  writeAndComplete rt (flag (ltSigned (readReg s rs) (simm imm))) s

/-- SLTIU: the immediate is sign-extended, then compared unsigned (40_alu.md R213). -/
def execSltiu (rt rs : RegNum) (imm : Imm16) (s : State) : Result :=
  writeAndComplete rt (flag (ltUnsigned (readReg s rs) (simm imm))) s

/-- ANDI (40_alu.md R214). -/
def execAndi (rt rs : RegNum) (imm : Imm16) (s : State) : Result := writeAndComplete rt (readReg s rs &&& uimm imm) s

/-- ORI (40_alu.md R215). -/
def execOri (rt rs : RegNum) (imm : Imm16) (s : State) : Result := writeAndComplete rt (readReg s rs ||| uimm imm) s

/-- XORI (40_alu.md R216). -/
def execXori (rt rs : RegNum) (imm : Imm16) (s : State) : Result := writeAndComplete rt (readReg s rs ^^^ uimm imm) s

/-- LUI (40_alu.md R217). -/
def execLui (rt : RegNum) (imm : Imm16) (s : State) : Result := writeAndComplete rt (upperImm imm) s

/-! ### Shifts -/

/-- SLL (40_alu.md R218). -/
def execSll (rd rt : RegNum) (sa : BitVec 5) (s : State) : Result := writeAndComplete rd (readReg s rt <<< sa.toNat) s

/-- SRL (40_alu.md R219). -/
def execSrl (rd rt : RegNum) (sa : BitVec 5) (s : State) : Result := writeAndComplete rd (readReg s rt >>> sa.toNat) s

/-- SRA (40_alu.md R220). -/
def execSra (rd rt : RegNum) (sa : BitVec 5) (s : State) : Result :=
  writeAndComplete rd ((readReg s rt).sshiftRight sa.toNat) s

/-- SLLV (40_alu.md R221). -/
def execSllv (rd rt rs : RegNum) (s : State) : Result :=
  writeAndComplete rd (readReg s rt <<< variableShift (readReg s rs)) s

/-- SRLV (40_alu.md R222). -/
def execSrlv (rd rt rs : RegNum) (s : State) : Result :=
  writeAndComplete rd (readReg s rt >>> variableShift (readReg s rs)) s

/-- SRAV (40_alu.md R223). -/
def execSrav (rd rt rs : RegNum) (s : State) : Result :=
  writeAndComplete rd ((readReg s rt).sshiftRight (variableShift (readReg s rs))) s

end Sys2Proof.Machine
end

