-- ==== Sys2Proof/Machine/Branch.lean ====
section
/-! DEFINITION. The meanings of 42_branch.md: branches and jumps. Each is refused in a delay slot by `branchTo`
(R265), before its link write can be seen. -/

namespace Sys2Proof.Machine

/-- A conditional branch of this step (42_branch.md R262). -/
def branchWhen (taken : Bool) (imm : Imm16) (s : State) : Result := branchTo (conditionalTarget s.pc imm taken) s

/-- A conditional branch with link: the link is written whether or not the branch is taken, and the condition was
read before it (42_branch.md R267). -/
def branchAndLinkWhen (taken : Bool) (imm : Imm16) (s : State) : Result :=
  branchTo (conditionalTarget s.pc imm taken) (writeReg s linkReg (linkAddress s.pc))

/-- BEQ (42_branch.md R270). -/
def execBeq (rs rt : RegNum) (imm : Imm16) (s : State) : Result := branchWhen (readReg s rs == readReg s rt) imm s

/-- BNE (42_branch.md R271). -/
def execBne (rs rt : RegNum) (imm : Imm16) (s : State) : Result := branchWhen (readReg s rs != readReg s rt) imm s

/-- BLEZ (42_branch.md R272). -/
def execBlez (rs : RegNum) (imm : Imm16) (s : State) : Result := branchWhen (!ltSigned 0 (readReg s rs)) imm s

/-- BGTZ (42_branch.md R273). -/
def execBgtz (rs : RegNum) (imm : Imm16) (s : State) : Result := branchWhen (ltSigned 0 (readReg s rs)) imm s

/-- BLTZ (42_branch.md R274). -/
def execBltz (rs : RegNum) (imm : Imm16) (s : State) : Result := branchWhen (ltSigned (readReg s rs) 0) imm s

/-- BGEZ (42_branch.md R275). -/
def execBgez (rs : RegNum) (imm : Imm16) (s : State) : Result := branchWhen (!ltSigned (readReg s rs) 0) imm s

/-- BLTZAL (42_branch.md R276). -/
def execBltzal (rs : RegNum) (imm : Imm16) (s : State) : Result := branchAndLinkWhen (ltSigned (readReg s rs) 0) imm s

/-- BGEZAL (42_branch.md R277). -/
def execBgezal (rs : RegNum) (imm : Imm16) (s : State) : Result := branchAndLinkWhen (!ltSigned (readReg s rs) 0) imm s

/-- J (42_branch.md R278). -/
def execJ (target : BitVec 26) (s : State) : Result := branchTo (jumpTarget s.pc target) s

/-- JAL (42_branch.md R279). -/
def execJal (target : BitVec 26) (s : State) : Result :=
  branchTo (jumpTarget s.pc target) (writeReg s linkReg (linkAddress s.pc))

/-- JR: any 32-bit target is accepted here (42_branch.md R280, R282). -/
def execJr (rs : RegNum) (s : State) : Result := branchTo (readReg s rs) s

/-- JALR: the target is read before the link write (42_branch.md R281). -/
def execJalr (rd rs : RegNum) (s : State) : Result := branchTo (readReg s rs) (writeReg s rd (linkAddress s.pc))

end Sys2Proof.Machine
end

