-- ==== Sys2Proof/Machine/Devices.lean ====
section
/-! DEFINITION. MI, the six controllers and their MMIO registers (20_memory.md R123 to R128; 60_exceptions.md R440 to
R467). Bit positions are parameters of the construction (R128). -/

namespace Sys2Proof.Machine

/-! ### The interrupt aggregator (60_exceptions.md section 7) -/

/-- The MI bit of a controller: SP 0, SI 1, AI 2, VI 3, PI 4, DP 5 (10_state.md R65). -/
def Controller.bit : Controller → Word
  | .sp => 0x01
  | .si => 0x02
  | .ai => 0x04
  | .vi => 0x08
  | .pi => 0x10
  | .dp => 0x20

/-- MI.raise(bits) (60_exceptions.md R440). -/
def Devices.miRaise (d : Devices) (bits : Word) : Devices := { d with mi := { d.mi with pending := d.mi.pending ||| bits } }

/-- MI.clear(bits) (60_exceptions.md R440). -/
def Devices.miClear (d : Devices) (bits : Word) : Devices := { d with mi := { d.mi with pending := d.mi.pending &&& ~~~bits } }

/-- The mask after an MI_INTR_MASK write: the low half of `v` sets bits, the high half clears them, and a bit that is
both set and cleared takes its value from `draw` (60_exceptions.md R443). -/
def maskWritten (mask v : Word) (draw : BitVec 16) : Word :=
  let set : BitVec 16 := v.extractLsb' 0 16
  let clr : BitVec 16 := v.extractLsb' 16 16
  let kept : BitVec 16 := (mask.extractLsb' 0 16 ||| set) &&& ~~~clr
  if set &&& clr = 0 then kept.setWidth 32 else (kept ||| (set &&& clr &&& draw)).setWidth 32

/-- Whether an MI_INTR_MASK write both sets and clears some bit (60_exceptions.md R443). -/
def maskConflict (v : Word) : Bool := (v.extractLsb' 0 16 &&& v.extractLsb' 16 16 : BitVec 16) != 0

/-- The MI_INTR_MASK write; a write with a conflict draws one free value (60_exceptions.md R443; log 4). -/
def miMaskWrite (s : State) (v : Word) : State :=
  let mask := maskWritten s.dev.mi.mask v (Config.miMaskConflict s.draws)
  let s' := s.setDev { s.dev with mi := { s.dev.mi with mask := mask } }
  if maskConflict v then s'.setDraws (s.draws + 1) else s'

/-! ### The controllers (60_exceptions.md section 8) -/

/-- SP start: the output event SpStart, then both SP's and DP's pending bits (60_exceptions.md R450). -/
def Devices.spStart (d : Devices) : Devices :=
  { d with spStarts := d.spStarts + 1 }.miRaise (Controller.sp.bit ||| Controller.dp.bit)

/-- SP ack (60_exceptions.md R451). -/
def Devices.spAck (d : Devices) : Devices := d.miClear Controller.sp.bit

/-- DP.raiseInterrupt() (60_exceptions.md R452). -/
def Devices.dpRaiseInterrupt (d : Devices) : Devices :=
  { d with dp := { busy := true, pipeBusy := true } }.miRaise Controller.dp.bit

/-- DP ack (60_exceptions.md R453). -/
def Devices.dpAck (d : Devices) : Devices :=
  { d with dp := { busy := false, pipeBusy := false } }.miClear Controller.dp.bit

/-- VI.vblank() (60_exceptions.md R454). -/
def Devices.viVblank (d : Devices) : Devices := d.miRaise Controller.vi.bit

/-- VI ack (60_exceptions.md R455). -/
def Devices.viAck (d : Devices) : Devices := d.miClear Controller.vi.bit

/-- AI_LEN write (60_exceptions.md R457). -/
def Devices.aiLenWrite (d : Devices) (v : Word) : Devices :=
  { d with ai := { d.ai with len := v, dmaBusy := d.ai.dmaBusy || v != 0 } }

/-- AI.completeDMA() (60_exceptions.md R458). -/
def Devices.aiCompleteDma (d : Devices) : Devices :=
  if d.ai.dmaBusy then { d with ai := { dramAddr := 0, len := 0, dmaBusy := false } }.miRaise Controller.ai.bit else d

/-- AI ack (60_exceptions.md R459). -/
def Devices.aiAck (d : Devices) : Devices := { d with ai := { d.ai with dmaBusy := false } }.miClear Controller.ai.bit

/-- PI_RD_LEN write (60_exceptions.md R460). -/
def Devices.piRdLenWrite (d : Devices) (v : Word) : Devices :=
  { d with pi := { d.pi with rdLen := v, len := v, dmaBusy := true, ioBusy := true } }

/-- PI_WR_LEN write (60_exceptions.md R460). -/
def Devices.piWrLenWrite (d : Devices) (v : Word) : Devices :=
  { d with pi := { d.pi with wrLen := v, len := v, dmaBusy := true, ioBusy := true } }

/-- PI_STATUS write: the DMA-busy bit is the ack, the IO-busy bit alone clears ioBusy only (60_exceptions.md R462). -/
def Devices.piStatusWrite (l : PiLayout) (d : Devices) (v : Word) : Devices :=
  if v.getLsbD l.dmaBusyBit then { d with pi := { d.pi with dmaBusy := false, ioBusy := false } }.miClear Controller.pi.bit
  else if v.getLsbD l.ioBusyBit then { d with pi := { d.pi with ioBusy := false } }
  else d

/-- The descriptor after PI.completeDMA(): flags and registers cleared; the descriptor length is not named by the rule
and stays (60_exceptions.md R461). -/
def Devices.piCompleted (d : Devices) : Devices :=
  { d with pi := { d.pi with dmaBusy := false, ioBusy := false, dramAddr := 0, cartAddr := 0, rdLen := 0, wrLen := 0 } }.miRaise
    Controller.pi.bit

/-- PI.completeDMA(): len + 1 bytes from ROM to RAM, zeros past the ROM's end, dropped past RAM's end
(60_exceptions.md R461). -/
def piCompleteDma (s : State) : State :=
  if s.dev.pi.dmaBusy then
    let dst := s.dev.pi.dramAddr.toNat
    let src := s.dev.pi.cartAddr.toNat
    let n := min (s.dev.pi.len.toNat + 1) (s.params.ramSize - dst)
    (s.setRam (s.ram.copy dst (fun i => s.rom.getD (src + i) 0) n)).setDev s.dev.piCompleted
  else s

/-- The size of PIF RAM (10_state.md R72). -/
def pifBytes : Nat := 64

/-- SI.kickRead64B(): PIF RAM to RAM, dropped past RAM's end (60_exceptions.md R464). -/
def siKickRead64B (s : State) : State :=
  let dst := s.dev.si.dramAddr.toNat
  (s.setRam (s.ram.copy dst s.dev.si.pif.read (min pifBytes (s.params.ramSize - dst)))).setDev (s.dev.miRaise Controller.si.bit)

/-- Byte i that SI.kickWrite64B() reads: RAM's, or 0 past RAM's end (60_exceptions.md R465). -/
def siSourceByte (s : State) (i : Nat) : Byte :=
  if s.dev.si.dramAddr.toNat + i < s.params.ramSize then s.ram.read (s.dev.si.dramAddr.toNat + i) else 0

/-- SI.kickWrite64B(): RAM to PIF RAM (60_exceptions.md R465). -/
def siKickWrite64B (s : State) : State :=
  s.setDev ({ s.dev with si := { s.dev.si with pif := s.dev.si.pif.copy 0 (siSourceByte s) pifBytes } }.miRaise
    Controller.si.bit)

/-- SI ack (60_exceptions.md R466). -/
def Devices.siAck (d : Devices) : Devices := d.miClear Controller.si.bit

/-! ### The MMIO registers -/

/-- MI_VERSION (00_scope.md R15). -/
def miVersion : Word := 0x02020102

/-- A flag at a bit position of a register's read value (20_memory.md R128). -/
def flagAt (c : Bool) (position : Nat) : Word := flag c <<< position

/-- The read value of a register; reading changes nothing (20_memory.md R126, R128). -/
def mmioRead (l : MmioLayout) (d : Devices) : MmioReg → Word
  | .miMode => 0
  | .miVersion => miVersion
  | .miIntr => d.mi.pending
  | .miIntrMask => d.mi.mask
  | .spStatus => 0
  | .spCmdStart => 0
  | .dpStatus => flagAt d.dp.pipeBusy l.dp.pipeBusyBit ||| flagAt d.dp.busy l.dp.busyBit
  | .viOrigin => d.vi.origin
  | .viWidth => d.vi.width
  | .viStatus => 0
  | .aiDramAddr => d.ai.dramAddr
  | .aiLen => d.ai.len
  | .aiStatus => flagAt d.ai.dmaBusy l.ai.busyBit
  | .piDramAddr => d.pi.dramAddr
  | .piCartAddr => d.pi.cartAddr
  | .piRdLen => d.pi.rdLen
  | .piWrLen => d.pi.wrLen
  | .piStatus => flagAt d.pi.dmaBusy l.pi.dmaBusyBit ||| flagAt d.pi.ioBusy l.pi.ioBusyBit
  | .siDramAddr => d.si.dramAddr
  | .siPifRd => d.si.pifRd
  | .siPifWr => d.si.pifWr
  | .siStatus => 0

/-- SP_STATUS write: the ack first, then the start (20_memory.md R128; 60_exceptions.md R450, R451). -/
def Devices.spStatusWrite (l : SpLayout) (d : Devices) (v : Word) : Devices :=
  let acked := if v.getLsbD l.ackBit then d.spAck else d
  if v.getLsbD l.startBit then acked.spStart else acked

/-- The effect of a word write of `v` to a register (20_memory.md R127, R128). -/
def mmioWrite (s : State) (r : MmioReg) (v : Word) : State :=
  match r with
  | .miMode => s.setDev (s.dev.miClear v)
  | .miVersion => s
  | .miIntr => s
  | .miIntrMask => miMaskWrite s v
  | .spStatus => s.setDev (s.dev.spStatusWrite s.params.layout.sp v)
  | .spCmdStart => s.setDev s.dev.spStart
  | .dpStatus => if v.getLsbD s.params.layout.dp.ackBit then s.setDev s.dev.dpAck else s
  | .viOrigin => s.setDev { s.dev with vi := { s.dev.vi with origin := v } }
  | .viWidth => s.setDev { s.dev with vi := { s.dev.vi with width := v } }
  | .viStatus => if v.getLsbD s.params.layout.vi.ackBit then s.setDev s.dev.viAck else s
  | .aiDramAddr => s.setDev { s.dev with ai := { s.dev.ai with dramAddr := v } }
  | .aiLen => s.setDev (s.dev.aiLenWrite v)
  | .aiStatus => if v.getLsbD s.params.layout.ai.ackBit then s.setDev s.dev.aiAck else s
  | .piDramAddr => s.setDev { s.dev with pi := { s.dev.pi with dramAddr := v } }
  | .piCartAddr => s.setDev { s.dev with pi := { s.dev.pi with cartAddr := v } }
  | .piRdLen => s.setDev (s.dev.piRdLenWrite v)
  | .piWrLen => s.setDev (s.dev.piWrLenWrite v)
  | .piStatus => s.setDev (s.dev.piStatusWrite s.params.layout.pi v)
  | .siDramAddr => s.setDev { s.dev with si := { s.dev.si with dramAddr := v } }
  | .siPifRd => siKickRead64B (s.setDev { s.dev with si := { s.dev.si with pifRd := v } })
  | .siPifWr => siKickWrite64B (s.setDev { s.dev with si := { s.dev.si with pifWr := v } })
  | .siStatus => if v.getLsbD s.params.layout.si.ackBit then s.setDev s.dev.siAck else s

end Sys2Proof.Machine
end

