-- ==== Sys2Proof/Machine/Bus.lean ====
section
/-! DEFINITION. Address translation, physical routing, and the accesses the core makes through the bus: fetch, load and
store (20_memory.md R100 to R132; 43_loadstore.md R300, R301). -/

namespace Sys2Proof.Machine

/-- What an access answers: a value, an exception to raise, or the spec's refusal (20_memory.md R114). -/
inductive Access (α : Type) where
  | ok (a : α)
  | raise (e : Exc)
  | refuse (r : Refusal)
  deriving DecidableEq, Repr

/-- An access with a result computed from its value. -/
def Access.map {α β : Type} (f : α → β) : Access α → Access β
  | .ok a => .ok (f a)
  | .raise e => .raise e
  | .refuse r => .refuse r

/-- What an instruction does with an access: it goes on with the value, ends in the exception, or is refused. -/
def Access.andThen {α : Type} (x : Access α) (s : State) (k : α → Result) : Result :=
  match x with
  | .ok a => k a
  | .raise e => Machine.raise e s
  | .refuse r => .refused r

/-! ### Translation (20_memory.md section 4) -/

/-- Whether a row of the table answers for an address and a kind (log 2). -/
def tlbRangeMatches (va : Word) (kind : AccessKind) (r : TlbRange) : Bool :=
  r.kind == kind && decide (r.first ≤ va) && decide (va ≤ r.last)

/-- The answer of a row: a hit keeps the distance from the row's first address. -/
def tlbRangeAnswer (va : Word) (r : TlbRange) : TlbAnswer :=
  match r.answer with
  | .hit pa => .hit (pa + (va - r.first))
  | a => a

/-- tlbLookup: the first row that matches answers, and an address in no row misses (00_scope.md R12; log 2). -/
def tlbLookup (p : Params) (va : Word) (kind : AccessKind) : TlbAnswer :=
  match p.tlb.find? (tlbRangeMatches va kind) with
  | some r => tlbRangeAnswer va r
  | none => .refill

/-- TlbTranslate(va, kind) (20_memory.md R114). -/
def tlbTranslate (p : Params) (va : Word) (kind : AccessKind) : Access Word :=
  match tlbLookup p va kind with
  | .hit pa => .ok pa
  | .refill => .raise (if kind = .store then .tlbStore va true else .tlbLoad va true)
  | .invalid => .raise (if kind = .store then .tlbStore va false else .tlbLoad va false)
  | .modified => if kind = .store then .raise (.tlbModified va) else .refuse .tlbLookupModifiedOnRead

/-- Translate(va, kind): KUSEG below 0x8000_0000, KSEG0 below 0xA000_0000, KSEG1 below 0xC000_0000, KSEG2/3 above
(20_memory.md R110 to R116). -/
def translateAddress (p : Params) (va : Word) (kind : AccessKind) : Access Word :=
  if va < 0x80000000#32 then
    if p.tlbMode then tlbTranslate p va kind else .ok va
  else if va < 0xA0000000#32 then .ok (va - 0x80000000)
  else if va < 0xC0000000#32 then .ok (va - 0xA0000000)
  else .ok va

/-! ### Physical routing (20_memory.md section 5) -/

/-- Where a physical address goes (20_memory.md R120). -/
inductive Route where
  | ram
  | mmio (bank : Bank) (offset : Nat)
  | outOfRange
  deriving DecidableEq, Repr

/-- The bases of the MMIO windows (20_memory.md R123). -/
def mmioBases : List (Bank × Nat) :=
  [(.sp, 0x04000000), (.dp, 0x04100000), (.mi, 0x04300000), (.vi, 0x04400000), (.ai, 0x04500000), (.pi, 0x04600000),
    (.si, 0x04800000)]

/-- The size of each window (20_memory.md R123). -/
def windowBytes : Nat := 0x100000

/-- Route(pa): RAM first, then the windows, else out of range (20_memory.md R120). -/
def route (p : Params) (pa : Word) : Route :=
  if pa.toNat < p.ramSize then .ram
  else
    match mmioBases.find? fun b => decide (b.2 ≤ pa.toNat) && decide (pa.toNat < b.2 + windowBytes) with
    | some b => .mmio b.1 (pa.toNat - b.2)
    | none => .outOfRange

/-- The value of the register at a word offset, 0 where there is none (20_memory.md R124). -/
def mmioWordAt (l : MmioLayout) (d : Devices) (bank : Bank) (offset : Nat) : Word :=
  match mmioReg l bank offset with
  | some r => mmioRead l d r
  | none => 0

/-- A load from a window: a sub-word load reads the matching bytes of the big-endian register (20_memory.md R125). -/
def mmioLoad (l : MmioLayout) (d : Devices) (bank : Bank) (offset : Nat) : Width → Word
  | .word => mmioWordAt l d bank offset
  | .half => ((mmioWordAt l d bank (offset - offset % 4) >>> (8 * (2 - offset % 4))).extractLsb' 0 16).setWidth 32
  | .byte => ((mmioWordAt l d bank (offset - offset % 4) >>> (8 * (3 - offset % 4))).extractLsb' 0 8).setWidth 32

/-- A store to a window: only a word store to a register has an effect (20_memory.md R124, R125, R127). -/
def mmioStore (s : State) (bank : Bank) (offset : Nat) (v : Word) : Width → State
  | .word =>
    match mmioReg s.params.layout bank offset with
    | some r => mmioWrite s r v
    | none => s
  | .half => s
  | .byte => s

/-- BusRead(pa, n), zero-extended to 32 bits; out of range reads 0 (20_memory.md R120 to R126). -/
def busRead (s : State) (pa : Word) (w : Width) : Word :=
  match route s.params pa with
  | .ram => s.ram.readWide pa.toNat w
  | .mmio bank offset => mmioLoad s.params.layout s.dev bank offset w
  | .outOfRange => 0

/-- BusWrite(pa, n, v); out of range is dropped (20_memory.md R120 to R127). -/
def busWrite (s : State) (pa : Word) (w : Width) (v : Word) : State :=
  match route s.params pa with
  | .ram => s.setRam (s.ram.writeWide pa.toNat v w)
  | .mmio bank offset => mmioStore s bank offset v w
  | .outOfRange => s

/-! ### The core's accesses -/

/-- Fetch(pc), with the alignment check before translation (20_memory.md R104; 42_branch.md R260, part 2). -/
def fetch (s : State) : Access Word :=
  if aligned s.pc .word then (translateAddress s.params s.pc .fetch).map fun pa => busRead s pa .word
  else .raise (.addressErrorLoad s.pc)

/-- The checks and the bus read of a load (43_loadstore.md R301). -/
def load (s : State) (va : Word) (w : Width) : Access Word :=
  if aligned va w then (translateAddress s.params va .load).map fun pa => busRead s pa w
  else .raise (.addressErrorLoad va)

/-- The checks of a store, and the physical address it goes to (43_loadstore.md R301). -/
def storeAddress (s : State) (va : Word) (w : Width) : Access Word :=
  if aligned va w then translateAddress s.params va .store else .raise (.addressErrorStore va)

/-- A load instruction: the value, extended, goes to x[rt] (43_loadstore.md R301, R310). -/
def loadInto (w : Width) (extend : Word → Word) (rt : RegNum) (imm : Imm16) (rs : RegNum) (s : State) : Result :=
  (load s (effectiveAddress s rs imm) w).andThen s fun v => complete (writeReg s rt (extend v))

/-- A store instruction: the low bytes of x[rt] go to the bus (43_loadstore.md R301, R311). -/
def storeFrom (w : Width) (rt : RegNum) (imm : Imm16) (rs : RegNum) (s : State) : Result :=
  (storeAddress s (effectiveAddress s rs imm) w).andThen s fun pa => complete (busWrite s pa w (readReg s rt))

end Sys2Proof.Machine
end

