-- ==== Sys2Proof/Machine/LoadStore.lean ====
section
/-! DEFINITION. The meanings of 43_loadstore.md. The bus read is zero-extended already, so LBU, LHU and LW take it as
it is. -/

namespace Sys2Proof.Machine

/-- LB (43_loadstore.md R302). -/
def execLb (rt : RegNum) (imm : Imm16) (rs : RegNum) (s : State) : Result := loadInto .byte signedByte rt imm rs s

/-- LBU (43_loadstore.md R303). -/
def execLbu (rt : RegNum) (imm : Imm16) (rs : RegNum) (s : State) : Result := loadInto .byte id rt imm rs s

/-- LH (43_loadstore.md R304). -/
def execLh (rt : RegNum) (imm : Imm16) (rs : RegNum) (s : State) : Result := loadInto .half signedHalf rt imm rs s

/-- LHU (43_loadstore.md R305). -/
def execLhu (rt : RegNum) (imm : Imm16) (rs : RegNum) (s : State) : Result := loadInto .half id rt imm rs s

/-- LW (43_loadstore.md R306). -/
def execLw (rt : RegNum) (imm : Imm16) (rs : RegNum) (s : State) : Result := loadInto .word id rt imm rs s

/-- SB (43_loadstore.md R307). -/
def execSb (rt : RegNum) (imm : Imm16) (rs : RegNum) (s : State) : Result := storeFrom .byte rt imm rs s

/-- SH (43_loadstore.md R308). -/
def execSh (rt : RegNum) (imm : Imm16) (rs : RegNum) (s : State) : Result := storeFrom .half rt imm rs s

/-- SW (43_loadstore.md R309). -/
def execSw (rt : RegNum) (imm : Imm16) (rs : RegNum) (s : State) : Result := storeFrom .word rt imm rs s

end Sys2Proof.Machine
end

