-- ==== Sys2Proof/Machine/MulDiv.lean ====
section
/-! DEFINITION. The meanings of 41_muldiv.md: multiply, divide, and the HI/LO moves. -/

namespace Sys2Proof.Machine

/-- Both halves of a 64-bit product: HI = bits 63:32, LO = bits 31:0 (41_muldiv.md R240). -/
def writeProduct (s : State) (p : BitVec 64) : State := (s.setHi (p.extractLsb' 32 32)).setLo (p.extractLsb' 0 32)

/-- A quotient to LO and a remainder to HI, narrowed to 32 bits (41_muldiv.md R240, R243). -/
def writeQuotient (s : State) (quotient remainder : Int) : State :=
  (s.setLo (BitVec.ofInt 32 quotient)).setHi (BitVec.ofInt 32 remainder)

/-- Division by zero: HI and LO each take a value drawn from divByZero, and no exception (41_muldiv.md R249; log 3). -/
def writeDrawnQuotient (s : State) : State :=
  ((s.setHi (Config.divByZero s.draws)).setLo (Config.divByZero (s.draws + 1))).setDraws (s.draws + 2)

/-- MULT (41_muldiv.md R241). -/
def execMult (rs rt : RegNum) (s : State) : Result :=
  complete (writeProduct s (BitVec.ofInt 64 ((readReg s rs).toInt * (readReg s rt).toInt)))

/-- MULTU (41_muldiv.md R242). -/
def execMultu (rs rt : RegNum) (s : State) : Result :=
  complete (writeProduct s (BitVec.ofNat 64 ((readReg s rs).toNat * (readReg s rt).toNat)))

/-- DIV: the exact quotient truncates toward zero; -2^31 / -1 narrows to 0x8000_0000 with remainder 0
(41_muldiv.md R243, R249). -/
def execDiv (rs rt : RegNum) (s : State) : Result :=
  let a := (readReg s rs).toInt
  let b := (readReg s rt).toInt
  complete (if b = 0 then writeDrawnQuotient s else writeQuotient s (a.tdiv b) (a - a.tdiv b * b))

/-- DIVU (41_muldiv.md R244). -/
def execDivu (rs rt : RegNum) (s : State) : Result :=
  let a := (readReg s rs).toNat
  let b := (readReg s rt).toNat
  complete (if b = 0 then writeDrawnQuotient s else writeQuotient s (a / b : Nat) (a % b : Nat))

/-- MFHI (41_muldiv.md R245). -/
def execMfhi (rd : RegNum) (s : State) : Result := complete (writeReg s rd s.hi)

/-- MFLO (41_muldiv.md R246). -/
def execMflo (rd : RegNum) (s : State) : Result := complete (writeReg s rd s.lo)

/-- MTHI (41_muldiv.md R247). -/
def execMthi (rs : RegNum) (s : State) : Result := complete (s.setHi (readReg s rs))

/-- MTLO (41_muldiv.md R248). -/
def execMtlo (rs : RegNum) (s : State) : Result := complete (s.setLo (readReg s rs))

end Sys2Proof.Machine
end

