-- ==== Sys2Proof/Machine/Reserved.lean ====
section
/-! DEFINITION. The meanings of the table's coprocessor rows (44_system.md R344) and named reserved rows (44_system.md
R343), one a row, and of the reserved words that have no row. -/

namespace Sys2Proof.Machine

/-- Every word of class reserved raises ReservedInstruction (44_system.md R343). -/
def reservedWord (s : State) : Result := raise .reservedInstruction s

/-- Every word of the coprocessor space raises CoprocessorUnusable (44_system.md R344). -/
def coprocessorWord (s : State) : Result := raise .coprocessorUnusable s

/-- A reserved word that selects no row of the table (30_encoding.md R168). -/
def execUnlisted (s : State) : Result := reservedWord s

/-! ### The coprocessor space (30_encoding.md R169) -/

/-- COP1 (44_system.md R344). -/
def execCop1 (s : State) : Result := coprocessorWord s

/-- COP2 (44_system.md R344). -/
def execCop2 (s : State) : Result := coprocessorWord s

/-- COP3 (44_system.md R344). -/
def execCop3 (s : State) : Result := coprocessorWord s

/-- LWC1 (44_system.md R344). -/
def execLwc1 (s : State) : Result := coprocessorWord s

/-- LWC2 (44_system.md R344). -/
def execLwc2 (s : State) : Result := coprocessorWord s

/-- LDC1 (44_system.md R344). -/
def execLdc1 (s : State) : Result := coprocessorWord s

/-- LDC2 (44_system.md R344). -/
def execLdc2 (s : State) : Result := coprocessorWord s

/-- SWC1 (44_system.md R344). -/
def execSwc1 (s : State) : Result := coprocessorWord s

/-- SWC2 (44_system.md R344). -/
def execSwc2 (s : State) : Result := coprocessorWord s

/-- SDC1 (44_system.md R344). -/
def execSdc1 (s : State) : Result := coprocessorWord s

/-- SDC2 (44_system.md R344). -/
def execSdc2 (s : State) : Result := coprocessorWord s

/-! ### The named reserved words (30_encoding.md R164 to R168) -/

/-- BEQL (44_system.md R343). -/
def execBeql (s : State) : Result := reservedWord s

/-- BNEL (44_system.md R343). -/
def execBnel (s : State) : Result := reservedWord s

/-- BLEZL (44_system.md R343). -/
def execBlezl (s : State) : Result := reservedWord s

/-- BGTZL (44_system.md R343). -/
def execBgtzl (s : State) : Result := reservedWord s

/-- DADDI (44_system.md R343). -/
def execDaddi (s : State) : Result := reservedWord s

/-- DADDIU (44_system.md R343). -/
def execDaddiu (s : State) : Result := reservedWord s

/-- LDL (44_system.md R343). -/
def execLdl (s : State) : Result := reservedWord s

/-- LDR (44_system.md R343). -/
def execLdr (s : State) : Result := reservedWord s

/-- SPECIAL2 (44_system.md R343). -/
def execSpecial2 (s : State) : Result := reservedWord s

/-- SPECIAL3 (44_system.md R343). -/
def execSpecial3 (s : State) : Result := reservedWord s

/-- LWL (44_system.md R343). -/
def execLwl (s : State) : Result := reservedWord s

/-- LWR (44_system.md R343). -/
def execLwr (s : State) : Result := reservedWord s

/-- LWU (44_system.md R343). -/
def execLwu (s : State) : Result := reservedWord s

/-- SWL (44_system.md R343). -/
def execSwl (s : State) : Result := reservedWord s

/-- SDL (44_system.md R343). -/
def execSdl (s : State) : Result := reservedWord s

/-- SDR (44_system.md R343). -/
def execSdr (s : State) : Result := reservedWord s

/-- SWR (44_system.md R343). -/
def execSwr (s : State) : Result := reservedWord s

/-- LL (44_system.md R343). -/
def execLl (s : State) : Result := reservedWord s

/-- PREF (44_system.md R343). -/
def execPref (s : State) : Result := reservedWord s

/-- LLD (44_system.md R343). -/
def execLld (s : State) : Result := reservedWord s

/-- LD (44_system.md R343). -/
def execLd (s : State) : Result := reservedWord s

/-- SC (44_system.md R343). -/
def execSc (s : State) : Result := reservedWord s

/-- SWC3 (44_system.md R343). -/
def execSwc3 (s : State) : Result := reservedWord s

/-- SCD (44_system.md R343). -/
def execScd (s : State) : Result := reservedWord s

/-- SD (44_system.md R343). -/
def execSd (s : State) : Result := reservedWord s

/-- BLTZL (44_system.md R343). -/
def execBltzl (s : State) : Result := reservedWord s

/-- BGEZL (44_system.md R343). -/
def execBgezl (s : State) : Result := reservedWord s

/-- BLTZALL (44_system.md R343). -/
def execBltzall (s : State) : Result := reservedWord s

/-- BGEZALL (44_system.md R343). -/
def execBgezall (s : State) : Result := reservedWord s

/-- MOVCI (44_system.md R343). -/
def execMovci (s : State) : Result := reservedWord s

/-- MOVZ (44_system.md R343). -/
def execMovz (s : State) : Result := reservedWord s

/-- MOVN (44_system.md R343). -/
def execMovn (s : State) : Result := reservedWord s

/-- DSLLV (44_system.md R343). -/
def execDsllv (s : State) : Result := reservedWord s

/-- DSRLV (44_system.md R343). -/
def execDsrlv (s : State) : Result := reservedWord s

/-- DSRAV (44_system.md R343). -/
def execDsrav (s : State) : Result := reservedWord s

/-- DMULT (44_system.md R343). -/
def execDmult (s : State) : Result := reservedWord s

/-- DMULTU (44_system.md R343). -/
def execDmultu (s : State) : Result := reservedWord s

/-- DDIV (44_system.md R343). -/
def execDdiv (s : State) : Result := reservedWord s

/-- DDIVU (44_system.md R343). -/
def execDdivu (s : State) : Result := reservedWord s

/-- DADD (44_system.md R343). -/
def execDadd (s : State) : Result := reservedWord s

/-- DADDU (44_system.md R343). -/
def execDaddu (s : State) : Result := reservedWord s

/-- DSUB (44_system.md R343). -/
def execDsub (s : State) : Result := reservedWord s

/-- DSUBU (44_system.md R343). -/
def execDsubu (s : State) : Result := reservedWord s

/-- DSLL (44_system.md R343). -/
def execDsll (s : State) : Result := reservedWord s

/-- DSRL (44_system.md R343). -/
def execDsrl (s : State) : Result := reservedWord s

/-- DSRA (44_system.md R343). -/
def execDsra (s : State) : Result := reservedWord s

/-- DSLL32 (44_system.md R343). -/
def execDsll32 (s : State) : Result := reservedWord s

/-- DSRL32 (44_system.md R343). -/
def execDsrl32 (s : State) : Result := reservedWord s

/-- DSRA32 (44_system.md R343). -/
def execDsra32 (s : State) : Result := reservedWord s

/-- DMFC0 (44_system.md R343). -/
def execDmfc0 (s : State) : Result := reservedWord s

/-- DMTC0 (44_system.md R343). -/
def execDmtc0 (s : State) : Result := reservedWord s

/-- RFE (44_system.md R343). -/
def execRfe (s : State) : Result := reservedWord s

/-- DERET (44_system.md R343). -/
def execDeret (s : State) : Result := reservedWord s

/-- WAIT (44_system.md R343). -/
def execWait (s : State) : Result := reservedWord s

end Sys2Proof.Machine
end

