-- ==== Sys2Proof/Machine/Cop0Regs.lean ====
section
/-! DEFINITION. CP0Read and CP0Write, the effect of MFC0, MTC0 and the host's cop0 operations (44_system.md R345 to
R353). -/

namespace Sys2Proof.Machine

/-- CP0Read(n); a number that names no register reads 0 (44_system.md R345). -/
def cop0Read (s : State) (n : RegNum) : Word :=
  match n with
  | 0#5 => s.cp0.index
  | 4#5 => s.cp0.context
  | 8#5 => s.cp0.badVAddr
  | 9#5 => s.cp0.count
  | 11#5 => s.cp0.compare
  | 12#5 => s.cp0.status
  | 13#5 => causeRead s
  | 14#5 => s.cp0.epc
  | _ => 0

/-- Context after a write: PTEBase from the value, BadVPN2 kept, bits 3:0 zero (44_system.md R347). -/
def contextWritten (context v : Word) : Word := (context &&& 0xFF800000) ||| (v &&& 0x007FFFF0)

/-- CP0Write(n, v) (44_system.md R346 to R353): BadVAddr and the numbers that name no register ignore the write. -/
def cop0Written (c : Cop0) (n : RegNum) (v : Word) : Cop0 :=
  match n with
  | 0#5 => { c with index := v }
  | 4#5 => { c with context := contextWritten c.context v }
  | 9#5 => { c with count := v, countPhase := 0 }
  | 11#5 => { c with compare := v, ip7 := false }
  | 12#5 => { c with status := v }
  | 13#5 => { c with swIP := v.extractLsb' 8 2 }
  | 14#5 => { c with epc := v }
  | _ => c

/-- CP0Write(n, v) on the state. -/
def cop0Write (s : State) (n : RegNum) (v : Word) : State := s.setCp0 (cop0Written s.cp0 n v)

end Sys2Proof.Machine
end

