-- ==== Sys2Proof/Machine/System.lean ====
section
/-! DEFINITION. The meanings of 44_system.md: system calls, traps, COP0 access, ERET, SYNC, CACHE and the refused TLB
instructions. -/

namespace Sys2Proof.Machine

/-- SYSCALL; the code field is ignored (44_system.md R320). -/
def execSyscall (_code : BitVec 20) (s : State) : Result := raise .syscall s

/-- BREAK; the code field is ignored (44_system.md R321). -/
def execBreak (_code : BitVec 20) (s : State) : Result := raise .breakpoint s

/-- A conditional trap: Trap when the condition holds, else no effect (44_system.md section 2). -/
def trapWhen (condition : Bool) (s : State) : Result := if condition then raise .trap s else complete s

/-- TGE (44_system.md R322). -/
def execTge (rs rt : RegNum) (_code : BitVec 10) (s : State) : Result :=
  trapWhen (!ltSigned (readReg s rs) (readReg s rt)) s

/-- TGEU (44_system.md R323). -/
def execTgeu (rs rt : RegNum) (_code : BitVec 10) (s : State) : Result :=
  trapWhen (!ltUnsigned (readReg s rs) (readReg s rt)) s

/-- TLT (44_system.md R324). -/
def execTlt (rs rt : RegNum) (_code : BitVec 10) (s : State) : Result :=
  trapWhen (ltSigned (readReg s rs) (readReg s rt)) s

/-- TLTU (44_system.md R325). -/
def execTltu (rs rt : RegNum) (_code : BitVec 10) (s : State) : Result :=
  trapWhen (ltUnsigned (readReg s rs) (readReg s rt)) s

/-- TEQ (44_system.md R326). -/
def execTeq (rs rt : RegNum) (_code : BitVec 10) (s : State) : Result := trapWhen (readReg s rs == readReg s rt) s

/-- TNE (44_system.md R327). -/
def execTne (rs rt : RegNum) (_code : BitVec 10) (s : State) : Result := trapWhen (readReg s rs != readReg s rt) s

/-- TGEI (44_system.md R328). -/
def execTgei (rs : RegNum) (imm : Imm16) (s : State) : Result := trapWhen (!ltSigned (readReg s rs) (simm imm)) s

/-- TGEIU: the immediate is sign-extended, then compared unsigned (44_system.md R329). -/
def execTgeiu (rs : RegNum) (imm : Imm16) (s : State) : Result := trapWhen (!ltUnsigned (readReg s rs) (simm imm)) s

/-- TLTI (44_system.md R330). -/
def execTlti (rs : RegNum) (imm : Imm16) (s : State) : Result := trapWhen (ltSigned (readReg s rs) (simm imm)) s

/-- TLTIU (44_system.md R331). -/
def execTltiu (rs : RegNum) (imm : Imm16) (s : State) : Result := trapWhen (ltUnsigned (readReg s rs) (simm imm)) s

/-- TEQI (44_system.md R332). -/
def execTeqi (rs : RegNum) (imm : Imm16) (s : State) : Result := trapWhen (readReg s rs == simm imm) s

/-- TNEI (44_system.md R333). -/
def execTnei (rs : RegNum) (imm : Imm16) (s : State) : Result := trapWhen (readReg s rs != simm imm) s

/-- MTC0 (44_system.md R334). -/
def execMtc0 (rt rd : RegNum) (s : State) : Result := complete (cop0Write s rd (readReg s rt))

/-- MFC0 (44_system.md R335). -/
def execMfc0 (rt rd : RegNum) (s : State) : Result := complete (writeReg s rt (cop0Read s rd))

/-- ERET: no delay slot, and refused in one (44_system.md R336; 42_branch.md R265). -/
def execEret (s : State) : Result :=
  if s.pend.valid then .refused .delaySlotControl else .next (returnFromException s)

/-- SYNC, a no-op (44_system.md R337). -/
def execSync (s : State) : Result := complete s

/-- CACHE, a no-op: it computes no address and raises no exception (44_system.md R338). -/
def execCache (_op : RegNum) (_imm : Imm16) (_base : RegNum) (s : State) : Result := complete s

/-- TLBR: refused, since the spec has no TLB entry registers (44_system.md R339). -/
def execTlbr (_s : State) : Result := .refused .tlbOpBehaviour

/-- TLBWI: refused (44_system.md R340). -/
def execTlbwi (_s : State) : Result := .refused .tlbOpBehaviour

/-- TLBWR: refused (44_system.md R341). -/
def execTlbwr (_s : State) : Result := .refused .tlbOpBehaviour

/-- TLBP: refused (44_system.md R342). -/
def execTlbp (_s : State) : Result := .refused .tlbOpBehaviour

end Sys2Proof.Machine
end

