-- ==== Sys2Proof/Machine/Dispatch.lean ====
section
/-! DEFINITION. The dispatch: one arm an instruction, each one call of its meaning. -/

namespace Sys2Proof.Machine

def exec (i : Instr) (s : State) : Host.Outcome State Fault Refusal :=
  match i with
  | .add rd rs rt => Sys2Proof.Machine.execAdd rd rs rt s
  | .addu rd rs rt => Sys2Proof.Machine.execAddu rd rs rt s
  | .sub rd rs rt => Sys2Proof.Machine.execSub rd rs rt s
  | .subu rd rs rt => Sys2Proof.Machine.execSubu rd rs rt s
  | .and rd rs rt => Sys2Proof.Machine.execAnd rd rs rt s
  | .or rd rs rt => Sys2Proof.Machine.execOr rd rs rt s
  | .xor rd rs rt => Sys2Proof.Machine.execXor rd rs rt s
  | .nor rd rs rt => Sys2Proof.Machine.execNor rd rs rt s
  | .slt rd rs rt => Sys2Proof.Machine.execSlt rd rs rt s
  | .sltu rd rs rt => Sys2Proof.Machine.execSltu rd rs rt s
  | .addi rt rs imm => Sys2Proof.Machine.execAddi rt rs imm s
  | .addiu rt rs imm => Sys2Proof.Machine.execAddiu rt rs imm s
  | .slti rt rs imm => Sys2Proof.Machine.execSlti rt rs imm s
  | .sltiu rt rs imm => Sys2Proof.Machine.execSltiu rt rs imm s
  | .andi rt rs imm => Sys2Proof.Machine.execAndi rt rs imm s
  | .ori rt rs imm => Sys2Proof.Machine.execOri rt rs imm s
  | .xori rt rs imm => Sys2Proof.Machine.execXori rt rs imm s
  | .lui rt imm => Sys2Proof.Machine.execLui rt imm s
  | .sll rd rt sa => Sys2Proof.Machine.execSll rd rt sa s
  | .srl rd rt sa => Sys2Proof.Machine.execSrl rd rt sa s
  | .sra rd rt sa => Sys2Proof.Machine.execSra rd rt sa s
  | .sllv rd rt rs => Sys2Proof.Machine.execSllv rd rt rs s
  | .srlv rd rt rs => Sys2Proof.Machine.execSrlv rd rt rs s
  | .srav rd rt rs => Sys2Proof.Machine.execSrav rd rt rs s
  | .mult rs rt => Sys2Proof.Machine.execMult rs rt s
  | .multu rs rt => Sys2Proof.Machine.execMultu rs rt s
  | .div rs rt => Sys2Proof.Machine.execDiv rs rt s
  | .divu rs rt => Sys2Proof.Machine.execDivu rs rt s
  | .mfhi rd => Sys2Proof.Machine.execMfhi rd s
  | .mflo rd => Sys2Proof.Machine.execMflo rd s
  | .mthi rs => Sys2Proof.Machine.execMthi rs s
  | .mtlo rs => Sys2Proof.Machine.execMtlo rs s
  | .lb rt imm rs => Sys2Proof.Machine.execLb rt imm rs s
  | .lbu rt imm rs => Sys2Proof.Machine.execLbu rt imm rs s
  | .lh rt imm rs => Sys2Proof.Machine.execLh rt imm rs s
  | .lhu rt imm rs => Sys2Proof.Machine.execLhu rt imm rs s
  | .lw rt imm rs => Sys2Proof.Machine.execLw rt imm rs s
  | .sb rt imm rs => Sys2Proof.Machine.execSb rt imm rs s
  | .sh rt imm rs => Sys2Proof.Machine.execSh rt imm rs s
  | .sw rt imm rs => Sys2Proof.Machine.execSw rt imm rs s
  | .beq rs rt imm => Sys2Proof.Machine.execBeq rs rt imm s
  | .bne rs rt imm => Sys2Proof.Machine.execBne rs rt imm s
  | .blez rs imm => Sys2Proof.Machine.execBlez rs imm s
  | .bgtz rs imm => Sys2Proof.Machine.execBgtz rs imm s
  | .bltz rs imm => Sys2Proof.Machine.execBltz rs imm s
  | .bgez rs imm => Sys2Proof.Machine.execBgez rs imm s
  | .bltzal rs imm => Sys2Proof.Machine.execBltzal rs imm s
  | .bgezal rs imm => Sys2Proof.Machine.execBgezal rs imm s
  | .j target => Sys2Proof.Machine.execJ target s
  | .jal target => Sys2Proof.Machine.execJal target s
  | .jr rs => Sys2Proof.Machine.execJr rs s
  | .jalr rd rs => Sys2Proof.Machine.execJalr rd rs s
  | .syscall code => Sys2Proof.Machine.execSyscall code s
  | .brk code => Sys2Proof.Machine.execBreak code s
  | .tge rs rt code => Sys2Proof.Machine.execTge rs rt code s
  | .tgeu rs rt code => Sys2Proof.Machine.execTgeu rs rt code s
  | .tlt rs rt code => Sys2Proof.Machine.execTlt rs rt code s
  | .tltu rs rt code => Sys2Proof.Machine.execTltu rs rt code s
  | .teq rs rt code => Sys2Proof.Machine.execTeq rs rt code s
  | .tne rs rt code => Sys2Proof.Machine.execTne rs rt code s
  | .tgei rs imm => Sys2Proof.Machine.execTgei rs imm s
  | .tgeiu rs imm => Sys2Proof.Machine.execTgeiu rs imm s
  | .tlti rs imm => Sys2Proof.Machine.execTlti rs imm s
  | .tltiu rs imm => Sys2Proof.Machine.execTltiu rs imm s
  | .teqi rs imm => Sys2Proof.Machine.execTeqi rs imm s
  | .tnei rs imm => Sys2Proof.Machine.execTnei rs imm s
  | .mtc0 rt rd => Sys2Proof.Machine.execMtc0 rt rd s
  | .mfc0 rt rd => Sys2Proof.Machine.execMfc0 rt rd s
  | .eret => Sys2Proof.Machine.execEret s
  | .sync => Sys2Proof.Machine.execSync s
  | .cache op imm base => Sys2Proof.Machine.execCache op imm base s
  | .tlbr => Sys2Proof.Machine.execTlbr s
  | .tlbwi => Sys2Proof.Machine.execTlbwi s
  | .tlbwr => Sys2Proof.Machine.execTlbwr s
  | .tlbp => Sys2Proof.Machine.execTlbp s
  | .cop1 => Sys2Proof.Machine.execCop1 s
  | .cop2 => Sys2Proof.Machine.execCop2 s
  | .cop3 => Sys2Proof.Machine.execCop3 s
  | .lwc1 => Sys2Proof.Machine.execLwc1 s
  | .lwc2 => Sys2Proof.Machine.execLwc2 s
  | .ldc1 => Sys2Proof.Machine.execLdc1 s
  | .ldc2 => Sys2Proof.Machine.execLdc2 s
  | .swc1 => Sys2Proof.Machine.execSwc1 s
  | .swc2 => Sys2Proof.Machine.execSwc2 s
  | .sdc1 => Sys2Proof.Machine.execSdc1 s
  | .sdc2 => Sys2Proof.Machine.execSdc2 s
  | .beql => Sys2Proof.Machine.execBeql s
  | .bnel => Sys2Proof.Machine.execBnel s
  | .blezl => Sys2Proof.Machine.execBlezl s
  | .bgtzl => Sys2Proof.Machine.execBgtzl s
  | .daddi => Sys2Proof.Machine.execDaddi s
  | .daddiu => Sys2Proof.Machine.execDaddiu s
  | .ldl => Sys2Proof.Machine.execLdl s
  | .ldr => Sys2Proof.Machine.execLdr s
  | .special2 => Sys2Proof.Machine.execSpecial2 s
  | .special3 => Sys2Proof.Machine.execSpecial3 s
  | .lwl => Sys2Proof.Machine.execLwl s
  | .lwr => Sys2Proof.Machine.execLwr s
  | .lwu => Sys2Proof.Machine.execLwu s
  | .swl => Sys2Proof.Machine.execSwl s
  | .sdl => Sys2Proof.Machine.execSdl s
  | .sdr => Sys2Proof.Machine.execSdr s
  | .swr => Sys2Proof.Machine.execSwr s
  | .ll => Sys2Proof.Machine.execLl s
  | .pref => Sys2Proof.Machine.execPref s
  | .lld => Sys2Proof.Machine.execLld s
  | .ld => Sys2Proof.Machine.execLd s
  | .sc => Sys2Proof.Machine.execSc s
  | .swc3 => Sys2Proof.Machine.execSwc3 s
  | .scd => Sys2Proof.Machine.execScd s
  | .sd => Sys2Proof.Machine.execSd s
  | .bltzl => Sys2Proof.Machine.execBltzl s
  | .bgezl => Sys2Proof.Machine.execBgezl s
  | .bltzall => Sys2Proof.Machine.execBltzall s
  | .bgezall => Sys2Proof.Machine.execBgezall s
  | .movci => Sys2Proof.Machine.execMovci s
  | .movz => Sys2Proof.Machine.execMovz s
  | .movn => Sys2Proof.Machine.execMovn s
  | .dsllv => Sys2Proof.Machine.execDsllv s
  | .dsrlv => Sys2Proof.Machine.execDsrlv s
  | .dsrav => Sys2Proof.Machine.execDsrav s
  | .dmult => Sys2Proof.Machine.execDmult s
  | .dmultu => Sys2Proof.Machine.execDmultu s
  | .ddiv => Sys2Proof.Machine.execDdiv s
  | .ddivu => Sys2Proof.Machine.execDdivu s
  | .dadd => Sys2Proof.Machine.execDadd s
  | .daddu => Sys2Proof.Machine.execDaddu s
  | .dsub => Sys2Proof.Machine.execDsub s
  | .dsubu => Sys2Proof.Machine.execDsubu s
  | .dsll => Sys2Proof.Machine.execDsll s
  | .dsrl => Sys2Proof.Machine.execDsrl s
  | .dsra => Sys2Proof.Machine.execDsra s
  | .dsll32 => Sys2Proof.Machine.execDsll32 s
  | .dsrl32 => Sys2Proof.Machine.execDsrl32 s
  | .dsra32 => Sys2Proof.Machine.execDsra32 s
  | .dmfc0 => Sys2Proof.Machine.execDmfc0 s
  | .dmtc0 => Sys2Proof.Machine.execDmtc0 s
  | .rfe => Sys2Proof.Machine.execRfe s
  | .deret => Sys2Proof.Machine.execDeret s
  | .wait => Sys2Proof.Machine.execWait s

end Sys2Proof.Machine
end

