-- ==== Sys2Proof/Machine/Step.lean ====
section
/-! DEFINITION. One step of the core, CPUCore.step() (42_branch.md R260), and the placing of the next instruction. -/

namespace Sys2Proof.Machine

/-- What a fetched word does: its instruction's meaning, or ReservedInstruction where it has none (42_branch.md R260,
parts 3 to 5; 30_encoding.md R168). -/
def execWord (w : Word) (s : State) : Host.Outcome State Fault Refusal :=
  match decode w with
  | .instr i => exec i s
  | .reject _ => execUnlisted s

/-- Step(): the interrupt check, the fetch, the instruction, and the Count tick at the end (42_branch.md R260). -/
def step (s : State) : Host.Outcome State Fault Refusal :=
  if s.refused then .refused .alreadyRefused
  else if interruptTaken s then thenTick (raise .interrupt s)
  else thenTick ((fetch s).andThen s fun w => execWord w s)

/-- `s` with an instruction word stored where the next step fetches: in the RAM byte its pc translates to, big-endian.
Where the pc does not reach RAM there is nothing to store into, and `s` is unchanged (log 7). -/
def State.withFetchWord (s : State) (nbits w : Nat) : State :=
  match translateAddress s.params s.pc .fetch with
  | .ok pa =>
    match route s.params pa with
    | .ram => s.setRam (s.ram.writeWide pa.toNat (tableWord nbits w) .word)
    | _ => s
  | _ => s

end Sys2Proof.Machine
end

