-- ==== Sys2Proof/Machine/HostOps.lean ====
section
/-! DEFINITION. The host operations and the scheduler (60_exceptions.md R470 to R481; 20_memory.md R132). Each is one
function over the state. A refusal sets the mark of 10_state.md R77, after which no operation changes anything
(log 5, log 10). -/

namespace Sys2Proof.Machine

/-- `refuse(…)`: the mark is set and stays (00_scope.md R20; 10_state.md R77). -/
def refuse (s : State) : State := s.setRefused true

/-- step(): one CPU step, without a cycle increment or events (60_exceptions.md R475). -/
def hostStep (s : State) : State :=
  match step s with
  | .next t => t
  | .fault _ => refuse s
  | .refused _ => refuse s

/-- pc set; the pending-branch slot is cleared (60_exceptions.md R476). -/
def hostSetPc (s : State) (v : Word) : State := (clearPend s).setPc v

/-- The physical address of a host bus access: the segment mapping without the TLB, on an aligned address
(20_memory.md R132). -/
def hostTranslate (s : State) (va : Word) (w : Width) : Option Word :=
  if aligned va w then
    match translateAddress { s.params with tlbMode := false } va .load with
    | .ok pa => some pa
    | _ => none
  else none

/-- loadU8/16/32: the value read and the machine after it, which has not changed; a misaligned one is refused, with no
value (20_memory.md R132; 60_exceptions.md R479). -/
def hostLoad (s : State) (va : Word) (w : Width) : Option Word × State :=
  match hostTranslate s va w with
  | some pa => (some (busRead s pa w), s)
  | none => (none, refuse s)

/-- storeU8/16/32; a misaligned one is refused (20_memory.md R132; 60_exceptions.md R479). -/
def hostStore (s : State) (va : Word) (w : Width) (v : Word) : State :=
  match hostTranslate s va w with
  | some pa => busWrite s pa w v
  | none => refuse s

/-- Raw RAM-buffer read, at 0 .. ramSize - 1 (60_exceptions.md R479; log 11). -/
def peekRam (s : State) (a : Nat) : Byte := if a < s.params.ramSize then s.ram.read a else 0

/-- Raw RAM-buffer write, at 0 .. ramSize - 1 (60_exceptions.md R479; log 11). -/
def pokeRam (s : State) (a : Nat) (b : Byte) : State :=
  if a < s.params.ramSize then s.setRam (s.ram.write a b) else s

/-- scheduleAt(c, cb); a cycle that is not in the future is refused (60_exceptions.md R471). -/
def scheduleAt (s : State) (cycle : Nat) (callback : Callback) : State :=
  if s.sched.cycle < cycle then
    s.setSched { s.sched with events := s.sched.events ++ [{ cycle := cycle, callback := callback }] }
  else refuse s

/-- scheduleEvery(start, interval, times, cb): its registrations in order, the rest dropped once one is refused
(60_exceptions.md R472; log 16). -/
def scheduleEvery (s : State) (start interval times : Nat) (callback : Callback) : State :=
  if interval = 0 then refuse s
  else (List.range times).foldl
    (fun t k => if t.refused then t else scheduleAt t (start + k * interval) callback) s

/-- What one host operation leaves of a machine that has not refused. The reads of pc, of x[0..31], of COP0 and of the
RAM buffer leave it as it is; their answers are `s.pc`, `readReg`, `cop0Read` and `peekRam` (60_exceptions.md R476 to
R479). -/
def HostOp.effect (s : State) : HostOp → State
  | .step => hostStep s
  | .getPc => s
  | .setPc v => hostSetPc s v
  | .getReg _ => s
  | .setReg r v => writeReg s r v
  | .cop0Read _ => s
  | .cop0Write n v => Machine.cop0Write s n v
  | .load w va => (hostLoad s va w).2
  | .store w va v => hostStore s va w v
  | .peekRam _ => s
  | .pokeRam a b => Machine.pokeRam s a b
  | .setRom bytes => s.setRom bytes
  | .spKick => s.setDev s.dev.spStart
  | .dpRaiseInterrupt => s.setDev s.dev.dpRaiseInterrupt
  | .viVblank => s.setDev s.dev.viVblank
  | .aiCompleteDma => s.setDev s.dev.aiCompleteDma
  | .piCompleteDma => Machine.piCompleteDma s
  | .siKickRead64B => Machine.siKickRead64B s
  | .siKickWrite64B => Machine.siKickWrite64B s
  | .raise c => s.setDev (s.dev.miRaise c.bit)
  | .clear c => s.setDev (s.dev.miClear c.bit)
  | .scheduleAt cycle callback => Machine.scheduleAt s cycle callback
  | .scheduleEvery start interval times callback => Machine.scheduleEvery s start interval times callback

/-- A host operation; a machine that has refused has stopped (log 10). -/
def HostOp.apply (op : HostOp) (s : State) : State := if s.refused then s else op.effect s

/-- The operations of a callback, in order. -/
def Callback.ops : Callback → List HostOp
  | .done => []
  | .andThen op rest => op :: rest.ops

/-- Host operations one after another. -/
def applyAll (ops : List HostOp) (s : State) : State := ops.foldl (fun t op => op.apply t) s

/-- Removing an event and running its callback (60_exceptions.md R470). -/
def fireEvent (s : State) (e : Event) : State :=
  if s.refused then s
  else applyAll e.callback.ops (s.setSched { s.sched with events := s.sched.events.erase e })

/-- The events due at the scheduler's cycle, in registration order (60_exceptions.md R470). -/
def dueEvents (s : State) : List Event := s.sched.events.filter fun e => e.cycle == s.sched.cycle

/-- One cycle: the counter, then the events due, then one CPU step (60_exceptions.md R470). -/
def stepCycle (s : State) : State :=
  if s.refused then s
  else
    let counted := s.setSched { s.sched with cycle := s.sched.cycle + 1 }
    HostOp.step.apply ((dueEvents counted).foldl fireEvent counted)

/-- stepCycles(n) (60_exceptions.md R470). -/
def stepCycles : Nat → State → State
  | 0, s => s
  | n + 1, s => stepCycles n (stepCycle s)

end Sys2Proof.Machine
end

