-- ==== Sys2Proof/WellFormed.lean ====
section
/-! DEFINITION. The checks on what the types leave open. An instruction's own fields need none: each operand has
exactly the width of its encoding field (30_encoding.md R151), so an ill-formed operand cannot be written down.
What can be ill-formed is a construction's parameters, and code that puts a branch, jump or ERET in a delay slot. -/

namespace Sys2Proof

/-- A row of tlbLookup never answers Modified for a fetch or a load (20_memory.md R114), and a hit keeps the address
modulo 4, without which an aligned access could straddle two routes (20_memory.md R120; log 2). -/
def TlbRange.wellFormed (r : TlbRange) : Bool :=
  match r.answer with
  | .hit pa => pa.toNat % 4 == r.first.toNat % 4
  | .modified => r.kind == .store
  | .refill => true
  | .invalid => true

/-- The offsets of one bank: multiples of 4 (20_memory.md R125) inside the window (R123), no two the same, so that an
offset selects one register (R124; log 6). -/
def offsetsWellFormed (offsets : List Nat) : Bool :=
  offsets.all (fun o => o % 4 == 0 && decide (o < 0x100000)) && decide offsets.Nodup

/-- Each bank's offsets are well formed; a bit position is below 32 by its type (20_memory.md R128). -/
def MmioLayout.wellFormed (l : MmioLayout) : Bool :=
  offsetsWellFormed [l.mi.mode, l.mi.version, l.mi.intr, l.mi.intrMask] &&
    offsetsWellFormed [l.sp.status, l.sp.cmdStart] &&
    offsetsWellFormed [l.dp.status] &&
    offsetsWellFormed [l.vi.origin, l.vi.width, l.vi.status] &&
    offsetsWellFormed [l.ai.dramAddr, l.ai.len, l.ai.status] &&
    offsetsWellFormed [l.pi.dramAddr, l.pi.cartAddr, l.pi.rdLen, l.pi.wrLen, l.pi.status] &&
    offsetsWellFormed [l.si.dramAddr, l.si.pifRd, l.si.pifWr, l.si.status]

/-- ramSize is a multiple of 4 and at most 0x0400_0000, countDivisor is at least 1, and the rows of tlbLookup and the
MMIO layout are well formed (00_scope.md R10, R11, R12, R14). -/
def Params.wellFormed (p : Params) : Bool :=
  p.ramSize % 4 == 0 && decide (p.ramSize ≤ 0x04000000) && decide (1 ≤ p.countDivisor) && p.tlb.all TlbRange.wellFormed &&
    p.layout.wellFormed

/-- The branches, the jumps and ERET: what 42_branch.md R265 refuses in a delay slot. -/
def Instr.isControl : Instr → Bool
  | .beq .. | .bne .. | .blez .. | .bgtz .. | .bltz .. | .bgez .. | .bltzal .. | .bgezal ..
  | .j .. | .jal .. | .jr .. | .jalr .. | .eret => true
  | _ => false

/-- The branches and the jumps alone: what has a delay slot (70_reset_and_hazards.md R510, R516). -/
def Instr.hasDelaySlot (i : Instr) : Bool := i.isControl && i != .eret

/-- Straight-line code is well formed when no branch, jump or ERET stands in a delay slot
(70_reset_and_hazards.md R511). -/
def delaySlotsWellFormed : List Instr → Bool
  | i :: j :: rest => !(i.hasDelaySlot && j.isControl) && delaySlotsWellFormed (j :: rest)
  | _ => true

end Sys2Proof
end

