-- ==== Sys2Proof/Safety.lean ====
section
/-! DEFINITION. What every run of the machine keeps: the invariant the claims rest on. -/

namespace Sys2Proof.Machine

/-- The state's invariant. Each part is something the spec says always holds. -/
structure Inv (s : State) : Prop where
  /-- The construction parameters are legal (00_scope.md R10, R11; 20_memory.md R114). -/
  params : s.params.wellFormed = true
  /-- "register 0 == 0 always" (10_state.md R31). -/
  zero : s.regs[0] = 0
  /-- RAM is in canonical form and has ramSize bytes (10_state.md R74). -/
  ram : s.ram.wf ∧ s.ram.below s.params.ramSize
  /-- PIF RAM is in canonical form and has 64 bytes (10_state.md R72). -/
  pif : s.dev.si.pif.wf ∧ s.dev.si.pif.below 64
  /-- Context bits 3:0 are 0 (10_state.md R42). -/
  context : s.cp0.context.extractLsb' 0 4 = 0
  /-- Cause.ExcCode holds a code of the taxonomy: 6, 7 and 14 to 31 are never written (60_exceptions.md R400). -/
  excCode : s.cp0.excCode.toNat ≤ 5 ∨ (8 ≤ s.cp0.excCode.toNat ∧ s.cp0.excCode.toNat ≤ 13)
  /-- countPhase is in [0, countDivisor) (10_state.md R45). -/
  phase : s.cp0.countPhase < s.params.countDivisor
  /-- MI.pending bits 31:6 are never set (10_state.md R65). -/
  pending : s.dev.mi.pending.extractLsb' 6 26 = 0
  /-- MI.mask bits 31:16 stay 0 (10_state.md R66). -/
  mask : s.dev.mi.mask.extractLsb' 16 16 = 0
  /-- Every registered event lies in the future (60_exceptions.md R470, R471). -/
  events : ∀ e ∈ s.sched.events, s.sched.cycle < e.cycle

end Sys2Proof.Machine
end

