-- ==== Sys2Proof/Certificates/Slice0/Obligations.lean ====
section
/-! DEFINITION. The statements for the provers. The helpers come first, each a part of what a rule of the spec says an
instruction does and leaves alone; then the obligations, one docstring each. No helper uses the meanings of
Machine/<Family>.lean: values are given by integer arithmetic, by bits, or by bytes. -/

namespace Sys2Proof.Claims
open Sys2Proof.Machine

/-! ### Instruction words, by the formats of 30_encoding.md R152 to R156 -/

def specialWord (rs rt rd sa : BitVec 5) (funct : BitVec 6) : Word := 0#6 ++ rs ++ rt ++ rd ++ sa ++ funct
def codeWord (code : BitVec 20) (funct : BitVec 6) : Word := 0#6 ++ code ++ funct
def trapWord (rs rt : BitVec 5) (code : BitVec 10) (funct : BitVec 6) : Word := 0#6 ++ rs ++ rt ++ code ++ funct
def immediateWord (opcode : BitVec 6) (rs rt : BitVec 5) (imm : BitVec 16) : Word := opcode ++ rs ++ rt ++ imm
def jumpWord (opcode : BitVec 6) (target : BitVec 26) : Word := opcode ++ target
def cop0MoveWord (rs rt rd : BitVec 5) (rest : BitVec 11) : Word := 0x10#6 ++ rs ++ rt ++ rd ++ rest
def cop0FunctionWord (rest : BitVec 19) (funct : BitVec 6) : Word := 0x10#6 ++ 1#1 ++ rest ++ funct

/-! ### Frames -/

/-- The instruction answers a next state, and that state is as `P` says. -/
def Completes (i : Instr) (s : State) (P : State → Prop) : Prop := ∃ t, exec i s = .next t ∧ P t

/-- Every general register reads as before. -/
def SameRegisters (s t : State) : Prop := ∀ r, readReg t r = readReg s r

/-- Every byte of RAM reads as before. -/
def SameRam (s t : State) : Prop := ∀ a, t.ram.read a = s.ram.read a

/-- HI and LO are as before. -/
def SameHiLo (s t : State) : Prop := t.hi = s.hi ∧ t.lo = s.lo

/-- What no instruction writes: the ROM image, the scheduler, the parameters, the refusal mark. -/
def SameHost (s t : State) : Prop :=
  t.rom = s.rom ∧ t.sched = s.sched ∧ t.params = s.params ∧ t.refused = s.refused

/-- RAM, the devices, the draws and the host's state are as before. -/
def SameStore (s t : State) : Prop := SameRam s t ∧ t.dev = s.dev ∧ t.draws = s.draws ∧ SameHost s t

/-- The commit of an instruction that is no branch, jump or ERET: the stored target after a delay slot, else pc + 4,
and the slot clear (42_branch.md R261, R263). -/
def Advanced (s t : State) : Prop :=
  t.pc = (if s.pend.valid then s.pend.target else s.pc + 4) ∧ t.pend.valid = false

/-- The instruction writes `v` to register `d`, and nothing else but the pc and the slot. Register 0 reads 0 whatever
is written to it (10_state.md R31). -/
def WritesRegister (d : RegNum) (v : Word) (s t : State) : Prop :=
  (d ≠ 0 → readReg t d = v) ∧ readReg t 0 = 0 ∧ (∀ r, r ≠ d → readReg t r = readReg s r) ∧ SameHiLo s t ∧
    t.cp0 = s.cp0 ∧ SameStore s t ∧ Advanced s t

/-- The instruction changes nothing but the pc and the slot. -/
def DoesNothing (s t : State) : Prop :=
  SameRegisters s t ∧ SameHiLo s t ∧ t.cp0 = s.cp0 ∧ SameStore s t ∧ Advanced s t

/-- The entry of an exception (60_exceptions.md R410 to R415) with ExcCode `code`, the address `bad` written to BadVAddr
if there is one, Context.BadVPN2 written from it if `tlb`, and the refill vector allowed if `refill`. Everything the
rule does not name is as before. -/
structure Enters (code : BitVec 5) (bad : Option Word) (tlb refill : Bool) (s t : State) : Prop where
  pc : t.pc =
    if s.cp0.status.getLsbD 22 then 0xBFC00180
    else if refill && !s.cp0.status.getLsbD 1 then 0x80000000
    else 0x80000180
  slot : t.pend.valid = false
  excCode : t.cp0.excCode = if s.cp0.status.getLsbD 1 then s.cp0.excCode else code
  bd : t.cp0.bd = if s.cp0.status.getLsbD 1 then s.cp0.bd else s.pend.valid
  epc : t.cp0.epc =
    if s.cp0.status.getLsbD 1 then s.cp0.epc
    else if s.pend.valid then s.pc - 4
    else s.pc
  badVAddr : t.cp0.badVAddr = bad.getD s.cp0.badVAddr
  context : ∀ j < 32, t.cp0.context.getLsbD j =
    if tlb = true ∧ 23 ≤ j then (bad.getD 0).getLsbD j else s.cp0.context.getLsbD j
  status : ∀ j < 32, t.cp0.status.getLsbD j = (decide (j = 1) || s.cp0.status.getLsbD j)
  otherCop0 : t.cp0.index = s.cp0.index ∧ t.cp0.count = s.cp0.count ∧ t.cp0.countPhase = s.cp0.countPhase ∧
    t.cp0.compare = s.cp0.compare ∧ t.cp0.ip7 = s.cp0.ip7 ∧ t.cp0.swIP = s.cp0.swIP
  registers : SameRegisters s t
  hiLo : SameHiLo s t
  store : SameStore s t

/-- The entry of each exception of the table of 60_exceptions.md R400. -/
def EntersWith : Exc → State → State → Prop
  | .interrupt => Enters 0 none false false
  | .tlbModified va => Enters 1 (some va) true false
  | .tlbLoad va refill => Enters 2 (some va) true refill
  | .tlbStore va refill => Enters 3 (some va) true refill
  | .addressErrorLoad va => Enters 4 (some va) false false
  | .addressErrorStore va => Enters 5 (some va) false false
  | .syscall => Enters 8 none false false
  | .breakpoint => Enters 9 none false false
  | .reservedInstruction => Enters 10 none false false
  | .coprocessorUnusable => Enters 11 none false false
  | .overflow => Enters 12 none false false
  | .trap => Enters 13 none false false

/-! ### Shapes of instruction rules -/

/-- A SPECIAL instruction with funct `f`, whatever its ignored sa field holds, writes a word related by `F` to x[rs]
and x[rt] to x[rd]. -/
def RegisterRule (f : BitVec 6) (build : RegNum → RegNum → RegNum → Instr) (F : Word → Word → Word → Prop) : Prop :=
  ∀ (rs rt rd sa : BitVec 5) (s : State),
    decode (specialWord rs rt rd sa f) = .instr (build rd rs rt) ∧
    ∃ v, F (readReg s rs) (readReg s rt) v ∧ Completes (build rd rs rt) s (WritesRegister rd v s)

/-- An immediate instruction writes a word related by `F` to x[rs] and its immediate to x[rt]. -/
def ImmediateRule (opcode : BitVec 6) (build : RegNum → RegNum → Imm16 → Instr) (F : Word → Imm16 → Word → Prop) :
    Prop :=
  ∀ (rs rt : BitVec 5) (imm : Imm16) (s : State),
    decode (immediateWord opcode rs rt imm) = .instr (build rt rs imm) ∧
    ∃ v, F (readReg s rs) imm v ∧ Completes (build rt rs imm) s (WritesRegister rt v s)

/-- A shift by the sa field, whatever its ignored rs field holds: every bit of the result. -/
def ShiftRule (f : BitVec 6) (build : RegNum → RegNum → BitVec 5 → Instr) (bit : Word → Nat → Nat → Bool) : Prop :=
  ∀ (rs rt rd sa : BitVec 5) (s : State),
    decode (specialWord rs rt rd sa f) = .instr (build rd rt sa) ∧
    ∃ v : Word, (∀ j < 32, v.getLsbD j = bit (readReg s rt) sa.toNat j) ∧
      Completes (build rd rt sa) s (WritesRegister rd v s)

/-- A shift by x[rs][4:0], whatever its ignored sa field holds. -/
def VariableShiftRule (f : BitVec 6) (build : RegNum → RegNum → RegNum → Instr) (bit : Word → Nat → Nat → Bool) :
    Prop :=
  ∀ (rs rt rd sa : BitVec 5) (s : State),
    decode (specialWord rs rt rd sa f) = .instr (build rd rt rs) ∧
    ∃ v : Word, (∀ j < 32, v.getLsbD j = bit (readReg s rt) ((readReg s rs).toNat % 32) j) ∧
      Completes (build rd rt rs) s (WritesRegister rd v s)

/-- Bit j after a left shift by n. -/
def leftBit (v : Word) (n j : Nat) : Bool := decide (n ≤ j) && v.getLsbD (j - n)

/-- Bit j after a logical right shift by n. -/
def rightBit (v : Word) (n j : Nat) : Bool := v.getLsbD (j + n)

/-- Bit j after an arithmetic right shift by n. -/
def arithmeticBit (v : Word) (n j : Nat) : Bool := v.getLsbD (min (j + n) 31)

/-- An exact integer fits 32 bits as a signed number. -/
def Fits (z : Int) : Prop := -2147483648 ≤ z ∧ z ≤ 2147483647

/-- An instruction whose exact signed result is `z`: it writes the result to register `d` when it fits, and raises
Overflow, writing nothing, when it does not (40_alu.md R225). -/
def OverflowRule (i : Instr) (d : RegNum) (z : Int) (s : State) : Prop :=
  (Fits z → ∃ v : Word, v.toInt = z ∧ Completes i s (WritesRegister d v s)) ∧
    (¬Fits z → Completes i s (Enters 12 none false false s))

/-- The instruction writes HI and LO, and nothing else but the pc, the slot and the count of draws. -/
def WritesHiLo (hi lo : Word) (s t : State) : Prop :=
  t.hi = hi ∧ t.lo = lo ∧ SameRegisters s t ∧ t.cp0 = s.cp0 ∧ SameRam s t ∧ t.dev = s.dev ∧ SameHost s t ∧
    Advanced s t

/-- A branch or jump with target `target`, outside a delay slot, that writes `v` to register `d` (register 0 where it
has no link): the slot is set and pc goes to the delay slot (42_branch.md R262). -/
def Branches (target : Word) (d : RegNum) (v : Word) (s t : State) : Prop :=
  t.pend = { target := target, valid := true } ∧ t.pc = s.pc + 4 ∧ (d ≠ 0 → readReg t d = v) ∧ readReg t 0 = 0 ∧
    (∀ r, r ≠ d → readReg t r = readReg s r) ∧ SameHiLo s t ∧ t.cp0 = s.cp0 ∧ SameStore s t

/-- The target of a conditional branch: pc + 4 + 4 · imm, with imm read as a signed number, when it is taken, else pc + 8;
all modulo 2^32 (30_encoding.md R161; 42_branch.md R262). -/
def branchTargetOf (pc : Word) (imm : Imm16) (taken : Prop) [Decidable taken] : Word :=
  if taken then BitVec.ofInt 32 (pc.toInt + 4 + 4 * imm.toInt) else BitVec.ofInt 32 (pc.toInt + 8)

/-- A trap: Trap when the condition holds, else nothing. -/
def TrapRule (i : Instr) (s : State) (condition : Prop) : Prop :=
  (condition → Completes i s (Enters 13 none false false s)) ∧ (¬condition → Completes i s (DoesNothing s))

/-- A register trap with funct `f`, whatever its code field holds. -/
def RegisterTrapRule (f : BitVec 6) (build : RegNum → RegNum → BitVec 10 → Instr) (C : Word → Word → Prop) : Prop :=
  ∀ (rs rt : BitVec 5) (code : BitVec 10) (s : State),
    decode (trapWord rs rt code f) = .instr (build rs rt code) ∧
    TrapRule (build rs rt code) s (C (readReg s rs) (readReg s rt))

/-- An immediate trap, selected by the rt field of REGIMM; the immediate is sign-extended. -/
def ImmediateTrapRule (sub : BitVec 5) (build : RegNum → Imm16 → Instr) (C : Word → Word → Prop) : Prop :=
  ∀ (rs : BitVec 5) (imm : Imm16) (s : State),
    decode (immediateWord 0x01 rs sub imm) = .instr (build rs imm) ∧
    TrapRule (build rs imm) s (C (readReg s rs) (imm.signExtend 32))

/-- A load: misaligned, it raises AddressErrorLoad; else it ends as its translation says, and where that gives a
physical address it writes the word the bus reads there, extended, to x[rt] (43_loadstore.md R301). -/
def LoadRule (opcode : BitVec 6) (build : RegNum → Imm16 → RegNum → Instr) (w : Width) (extend : Word → Word) : Prop :=
  ∀ (rs rt : BitVec 5) (imm : Imm16) (s : State),
    let i := build rt imm rs
    let va := readReg s rs + imm.signExtend 32
    decode (immediateWord opcode rs rt imm) = .instr i ∧
    (va.toNat % w.bytes ≠ 0 → Completes i s (Enters 4 (some va) false false s)) ∧
    (va.toNat % w.bytes = 0 →
      (∀ pa, translateAddress s.params va .load = .ok pa → Completes i s (WritesRegister rt (extend (busRead s pa w)) s)) ∧
      (∀ e, translateAddress s.params va .load = .raise e → Completes i s (EntersWith e s)) ∧
      (∀ r, translateAddress s.params va .load = .refuse r → exec i s = .refused r))

/-- Byte k of the w.bytes low bytes of `v`, the most significant first (20_memory.md R100). -/
def bigEndianByte (v : Word) (w : Width) (k : Nat) : Byte := v.extractLsb' (8 * (w.bytes - 1 - k)) 8

/-- The store of the low bytes of `v` at a physical address of RAM: those bytes, and no other byte of memory. -/
def StoresBytes (pa : Nat) (w : Width) (v : Word) (s t : State) : Prop :=
  (∀ k < w.bytes, t.ram.read (pa + k) = bigEndianByte v w k) ∧
    ∀ a, (a < pa ∨ pa + w.bytes ≤ a) → t.ram.read a = s.ram.read a

/-- What a store does at each kind of physical address: bytes in RAM; the register's write for a word store to an MMIO
register; nothing at an unlisted offset, for a sub-word store to a window, or out of range (20_memory.md R120 to R127). -/
def StoresAt (pa : Word) (w : Width) (v : Word) (s t : State) : Prop :=
  match route s.params pa with
  | .ram => StoresBytes pa.toNat w v s t ∧ t.dev = s.dev ∧ t.draws = s.draws
  | .mmio bank offset =>
    match w, mmioReg s.params.layout bank offset with
    | .word, some r =>
      (∀ a, t.ram.read a = (mmioWrite s r v).ram.read a) ∧ t.dev = (mmioWrite s r v).dev ∧
        t.draws = (mmioWrite s r v).draws
    | _, _ => SameRam s t ∧ t.dev = s.dev ∧ t.draws = s.draws
  | .outOfRange => SameRam s t ∧ t.dev = s.dev ∧ t.draws = s.draws

/-- A store: misaligned, it raises AddressErrorStore; else it ends as its translation says, and where that gives a
physical address it stores the low bytes of x[rt] there and changes no register (43_loadstore.md R301). The canonical
form of RAM, part of the invariant every step keeps, is a premise of the store. -/
def StoreRule (opcode : BitVec 6) (build : RegNum → Imm16 → RegNum → Instr) (w : Width) : Prop :=
  ∀ (rs rt : BitVec 5) (imm : Imm16) (s : State),
    let i := build rt imm rs
    let va := readReg s rs + imm.signExtend 32
    decode (immediateWord opcode rs rt imm) = .instr i ∧
    (va.toNat % w.bytes ≠ 0 → Completes i s (Enters 5 (some va) false false s)) ∧
    (va.toNat % w.bytes = 0 →
      (∀ pa, s.ram.wf → translateAddress s.params va .store = .ok pa →
        Completes i s fun t => StoresAt pa w (readReg s rt) s t ∧ SameRegisters s t ∧ SameHiLo s t ∧ t.cp0 = s.cp0 ∧
          SameHost s t ∧ Advanced s t) ∧
      (∀ e, translateAddress s.params va .store = .raise e → Completes i s (EntersWith e s)) ∧
      (∀ r, translateAddress s.params va .store ≠ .refuse r))

/-! ### Lists of instructions -/

/-- Those of the primary opcode map (30_encoding.md R164). -/
def reservedPrimary : List Instr :=
  [.beql, .bnel, .blezl, .bgtzl, .daddi, .daddiu, .ldl, .ldr, .special2, .special3, .lwl, .lwr, .lwu, .swl, .sdl, .sdr,
    .swr, .ll, .pref, .lld, .ld, .sc, .swc3, .scd, .sd]

/-- Those of REGIMM (30_encoding.md R166). -/
def reservedRegimm : List Instr := [.bltzl, .bgezl, .bltzall, .bgezall]

/-- Those of SPECIAL (30_encoding.md R165). -/
def reservedSpecial : List Instr :=
  [.movci, .movz, .movn, .dsllv, .dsrlv, .dsrav, .dmult, .dmultu, .ddiv, .ddivu, .dadd, .daddu, .dsub, .dsubu, .dsll,
    .dsrl, .dsra, .dsll32, .dsrl32, .dsra32]

/-- Those of COP0 (30_encoding.md R167). -/
def reservedCop0 : List Instr := [.dmfc0, .dmtc0, .rfe, .deret, .wait]

/-- The 54 reserved rows of the opcode table (30_encoding.md R168). -/
def reservedRows : List Instr :=
  reservedPrimary ++ (reservedRegimm ++ (reservedSpecial ++ reservedCop0))

/-- The rows of the coprocessor space with their opcodes (30_encoding.md R169). -/
def coprocessorRows : List (BitVec 6 × Instr) :=
  [(0x11, .cop1), (0x12, .cop2), (0x13, .cop3), (0x31, .lwc1), (0x32, .lwc2), (0x35, .ldc1), (0x36, .ldc2),
    (0x39, .swc1), (0x3A, .swc2), (0x3D, .sdc1), (0x3E, .sdc2)]

/-- The branches, the jumps and ERET (42_branch.md R265). -/
inductive ControlTransfer : Instr → Prop where
  | beq (rs rt imm) : ControlTransfer (.beq rs rt imm)
  | bne (rs rt imm) : ControlTransfer (.bne rs rt imm)
  | blez (rs imm) : ControlTransfer (.blez rs imm)
  | bgtz (rs imm) : ControlTransfer (.bgtz rs imm)
  | bltz (rs imm) : ControlTransfer (.bltz rs imm)
  | bgez (rs imm) : ControlTransfer (.bgez rs imm)
  | bltzal (rs imm) : ControlTransfer (.bltzal rs imm)
  | bgezal (rs imm) : ControlTransfer (.bgezal rs imm)
  | j (target) : ControlTransfer (.j target)
  | jal (target) : ControlTransfer (.jal target)
  | jr (rs) : ControlTransfer (.jr rs)
  | jalr (rd rs) : ControlTransfer (.jalr rd rs)
  | eret : ControlTransfer .eret

/-- Whether the machine's step fetches, from its pc, a word that decodes to `i`. -/
def Fetches (s : State) (i : Instr) : Prop := ∃ w, fetch s = .ok w ∧ decode w = .instr i

/-- The number of a controller's MI bit (10_state.md R65). -/
def miNumber : Controller → Nat
  | .sp => 0
  | .si => 1
  | .ai => 2
  | .vi => 3
  | .pi => 4
  | .dp => 5

/-- The address of an MMIO register: the base of its window (20_memory.md R123) and its offset, a parameter of the
construction (R128). -/
def registerAddress (l : MmioLayout) : MmioReg → Word
  | .spStatus => BitVec.ofNat 32 (0x04000000 + l.sp.status)
  | .spCmdStart => BitVec.ofNat 32 (0x04000000 + l.sp.cmdStart)
  | .dpStatus => BitVec.ofNat 32 (0x04100000 + l.dp.status)
  | .miMode => BitVec.ofNat 32 (0x04300000 + l.mi.mode)
  | .miVersion => BitVec.ofNat 32 (0x04300000 + l.mi.version)
  | .miIntr => BitVec.ofNat 32 (0x04300000 + l.mi.intr)
  | .miIntrMask => BitVec.ofNat 32 (0x04300000 + l.mi.intrMask)
  | .viOrigin => BitVec.ofNat 32 (0x04400000 + l.vi.origin)
  | .viWidth => BitVec.ofNat 32 (0x04400000 + l.vi.width)
  | .viStatus => BitVec.ofNat 32 (0x04400000 + l.vi.status)
  | .aiDramAddr => BitVec.ofNat 32 (0x04500000 + l.ai.dramAddr)
  | .aiLen => BitVec.ofNat 32 (0x04500000 + l.ai.len)
  | .aiStatus => BitVec.ofNat 32 (0x04500000 + l.ai.status)
  | .piDramAddr => BitVec.ofNat 32 (0x04600000 + l.pi.dramAddr)
  | .piCartAddr => BitVec.ofNat 32 (0x04600000 + l.pi.cartAddr)
  | .piRdLen => BitVec.ofNat 32 (0x04600000 + l.pi.rdLen)
  | .piWrLen => BitVec.ofNat 32 (0x04600000 + l.pi.wrLen)
  | .piStatus => BitVec.ofNat 32 (0x04600000 + l.pi.status)
  | .siDramAddr => BitVec.ofNat 32 (0x04800000 + l.si.dramAddr)
  | .siPifRd => BitVec.ofNat 32 (0x04800000 + l.si.pifRd)
  | .siPifWr => BitVec.ofNat 32 (0x04800000 + l.si.pifWr)
  | .siStatus => BitVec.ofNat 32 (0x04800000 + l.si.status)

/-- CP0Write(n, v) of 44_system.md R346 to R353: the bits each COP0 register takes. BadVAddr and the numbers that name no
register take none. -/
def TakesCop0 (n : RegNum) (v : Word) (s t : State) : Prop :=
  t.cp0.index = (if n = 0 then v else s.cp0.index) ∧
    (∀ j < 32, t.cp0.context.getLsbD j =
      if n = 4 ∧ j < 23 then decide (4 ≤ j) && v.getLsbD j else s.cp0.context.getLsbD j) ∧
    t.cp0.badVAddr = s.cp0.badVAddr ∧ t.cp0.count = (if n = 9 then v else s.cp0.count) ∧
    t.cp0.countPhase = (if n = 9 then 0 else s.cp0.countPhase) ∧
    t.cp0.compare = (if n = 11 then v else s.cp0.compare) ∧ t.cp0.ip7 = (if n = 11 then false else s.cp0.ip7) ∧
    t.cp0.status = (if n = 12 then v else s.cp0.status) ∧
    (∀ j < 2, t.cp0.swIP.getLsbD j = if n = 13 then v.getLsbD (8 + j) else s.cp0.swIP.getLsbD j) ∧
    t.cp0.excCode = s.cp0.excCode ∧ t.cp0.bd = s.cp0.bd ∧ t.cp0.epc = (if n = 14 then v else s.cp0.epc)

/-- A device acknowledgment: the word write of `v` at physical address `a` clears MI.pending bit `n` and, by `clear`, the
device's busy flags, changes nothing else, and a second one changes nothing (60_exceptions.md R448, R449). -/
def AckRule (s : State) (a v : Word) (n : Nat) (clear : Devices → Devices) : Prop :=
  let t := busWrite s a .word v
  (∀ j < 32, t.dev.mi.pending.getLsbD j = (s.dev.mi.pending.getLsbD j && decide (j ≠ n))) ∧
    t = s.setDev { clear s.dev with mi := { s.dev.mi with pending := t.dev.mi.pending } } ∧ busWrite t a .word v = t

end Sys2Proof.Claims

open Sys2Proof Sys2Proof.Machine Sys2Proof.Claims

/-- O1. Every piece of state of the table of R79 has the value the table gives it: the registers, HI, LO, pc and the
slot; the COP0 registers and the stored parts of Cause; the divisor default 1; MI and the controllers; every byte of
RAM and PIF RAM; the ROM; the scheduler; the refusal mark. The values are the spec's own decision D22. (R79) -/
def Obligations.ResetState : Prop :=
  let s := State.reset
  (∀ r, readReg s r = 0) ∧ s.hi = 0 ∧ s.lo = 0 ∧ s.pc = 0 ∧ s.pend = { target := 0, valid := false } ∧
    (s.cp0.index = 0 ∧ s.cp0.context = 0 ∧ s.cp0.badVAddr = 0 ∧ s.cp0.count = 0 ∧ s.cp0.compare = 0 ∧ s.cp0.status = 0 ∧
      s.cp0.epc = 0) ∧
    (s.cp0.bd = false ∧ s.cp0.ip7 = false ∧ s.cp0.swIP = 0 ∧ s.cp0.excCode = 0 ∧ s.cp0.countPhase = 0) ∧
    s.params.countDivisor = 1 ∧ s.dev.mi.pending = 0 ∧ s.dev.mi.mask = 0 ∧
    (s.dev.dp.busy = false ∧ s.dev.dp.pipeBusy = false ∧ s.dev.ai.dmaBusy = false ∧ s.dev.pi.dmaBusy = false ∧
      s.dev.pi.ioBusy = false) ∧
    (s.dev.vi.origin = 0 ∧ s.dev.vi.width = 0 ∧ s.dev.ai.dramAddr = 0 ∧ s.dev.ai.len = 0 ∧ s.dev.pi.dramAddr = 0 ∧
      s.dev.pi.cartAddr = 0 ∧ s.dev.pi.rdLen = 0 ∧ s.dev.pi.wrLen = 0 ∧ s.dev.pi.len = 0 ∧ s.dev.si.dramAddr = 0 ∧
      s.dev.si.pifRd = 0 ∧ s.dev.si.pifWr = 0) ∧
    (∀ a, s.dev.si.pif.read a = 0) ∧ (∀ a, s.ram.read a = 0) ∧ s.rom = [] ∧ s.sched.cycle = 0 ∧ s.sched.events = [] ∧
    s.refused = false

/-- O2. The invariant that StepKeepsInvariant says every step keeps holds of the state at construction. (R79, R31, R45,
R65, R66, R74) -/
def Obligations.ResetMeetsInvariant : Prop :=
  Inv State.reset

/-- O3. From every state that meets the invariant, a step that answers a next state gives a state that meets it: legal
parameters, register 0 is 0, RAM and PIF RAM keep their canonical form and size, Context bits 3:0 stay 0, ExcCode
stays a code of the taxonomy, countPhase stays below the divisor, MI.pending bits 31:6 and MI.mask bits 31:16 stay
0, and every scheduled event stays in the future. That a hit of tlbLookup keeps the address modulo 4 is a premise
inside the invariant (log 2). (R31, R42, R45, R65, R66, R72, R74, R400, R471) -/
def Obligations.StepKeepsInvariant : Prop :=
  ∀ s t : State, Inv s → step s = .next t → Inv t

/-- O4. From a state that meets the invariant, n cycles of the scheduler, unless the machine refuses on the way, give a
state that meets the invariant, whose cycle counter has advanced by n; in particular no event at or before the
counter is still registered. A cycle is a function beside step (log 8), and a callback is a fixed list of host
operations (log 15), both the model's own form. (R470, R471, R474, R75) -/
def Obligations.CyclesKeepInvariant : Prop :=
  ∀ (n : Nat) (s : State), Inv s → (stepCycles n s).refused = false →
    Inv (stepCycles n s) ∧ (stepCycles n s).sched.cycle = s.sched.cycle + n

/-- O5. For every instruction of the table, with every operand at every value its field admits, decoding its word gives
it, and so does decoding its four big-endian bytes, with the bytes after them left over. (R151, R152, R153, R154,
R155, R156, R175) -/
def Obligations.DecodeEncode : Prop :=
  ∀ (i : Instr) (rest : List Byte),
    decode (encode i) = .instr i ∧ decodeBytes (bytesOfWord (encode i) ++ rest) = (.instr i, rest)

/-- O6. A word decodes to an instruction exactly when it selects that instruction's row of spec/opcode_table.json; a
word that selects a row decodes to an instruction of that row, so no two rows overlap; and a word that selects no
row of class insn or cpu is rejected or decodes to a reserved row. The reserved rows and unlisted reserved words
stand apart by the model's own choice (log 13). (R168, R169, R173) -/
def Obligations.DecodeMatchesTable : Prop :=
  (∀ (w : Word) (i : Instr), decode w = .instr i → i.row.selects w) ∧
    (∀ (w : Word) (i : Instr), i.row.selects w → ∃ j : Instr, decode w = .instr j ∧ j.row = i.row) ∧
    ∀ w : Word, (∀ i : Instr, i.row.cls ≠ .reserved → ¬i.row.selects w) →
      (∃ why, decode w = .reject why) ∨ ∃ i : Instr, decode w = .instr i ∧ i.row.cls = .reserved

/-- O7. One word of each format, written bit by bit, decodes to the instruction it stands for. (R152, R153, R154, R155,
R156) -/
def Obligations.DecodeKnownWords : Prop :=
  decode 0b000000_00001_00010_00011_00000_100001#32 = .instr (.addu 3 1 2) ∧
    decode 0b000000_00000_00001_00010_11111_000000#32 = .instr (.sll 2 1 31) ∧
    decode 0b001000_00001_00010_1000000000000000#32 = .instr (.addi 2 1 0x8000) ∧
    decode 0b100011_00001_00010_1111111111111100#32 = .instr (.lw 2 0xFFFC 1) ∧
    decode 0b000010_00000000000000000100000000#32 = .instr (.j 0x100) ∧
    decode 0b000001_11111_10000_0000000000000100#32 = .instr (.bltzal 31 4) ∧
    decode 0b010000_00100_00001_01100_00000000000#32 = .instr (.mtc0 1 12) ∧
    decode 0b010000_1_0000000000000000000_011000#32 = .instr .eret

/-- O8. When the machine has not refused, no interrupt is taken, the pc is aligned and translates to an address of RAM,
and the four bytes there, big-endian, decode to i, the step is the meaning of i with the Count tick after a next
state and without it after a refusal. When the word fetched anywhere has no instruction, the step is the entry of
ReservedInstruction, with the tick. (R260, R436, R150, R100) -/
def Obligations.StepRunsDecodedInstruction : Prop :=
  (∀ (s : State) (pa : Word) (i : Instr), s.refused = false → interruptTaken s = false → s.pc.toNat % 4 = 0 →
      translateAddress s.params s.pc .fetch = .ok pa → pa.toNat < s.params.ramSize →
      decodeBytes [s.ram.read pa.toNat, s.ram.read (pa.toNat + 1), s.ram.read (pa.toNat + 2), s.ram.read (pa.toNat + 3)] =
        (.instr i, []) →
      (∀ u, exec i s = .next u → step s = .next (countTick u)) ∧ ∀ r, exec i s = .refused r → step s = .refused r) ∧
    ∀ (s : State) (w : Word) (why : DecodeReject), s.refused = false → interruptTaken s = false → fetch s = .ok w →
      decode w = .reject why → ∃ u, Enters 10 none false false s u ∧ step s = .next (countTick u)

/-- O9. ADDU and SUBU write the sum and difference modulo 2^32 and never trap; SLT and SLTU write 1 or 0 by the signed
and the unsigned comparison. Each decodes from its funct whatever its sa field holds, completes in every state,
writes x[rd] only (nothing when rd is 0) and advances. (R201, R203, R208, R209) -/
def Obligations.RegisterArithmetic : Prop :=
  RegisterRule 0x21 .addu (fun a b v => v.toNat = (a.toNat + b.toNat) % 4294967296) ∧
    RegisterRule 0x23 .subu (fun a b v => (v.toNat : Int) = ((a.toNat : Int) - b.toNat) % 4294967296) ∧
    RegisterRule 0x2A .slt (fun a b v => (a.toInt < b.toInt → v = 1) ∧ (b.toInt ≤ a.toInt → v = 0)) ∧
    RegisterRule 0x2B .sltu (fun a b v => (a.toNat < b.toNat → v = 1) ∧ (b.toNat ≤ a.toNat → v = 0))

/-- O10. Each bit of the result is the and, or, exclusive or, or negated or of the operands' bits. Each decodes from its
funct whatever its sa field holds, completes in every state, writes x[rd] only and advances. (R204, R205, R206,
R207) -/
def Obligations.RegisterLogic : Prop :=
  RegisterRule 0x24 .and (fun a b v => ∀ j < 32, v.getLsbD j = (a.getLsbD j && b.getLsbD j)) ∧
    RegisterRule 0x25 .or (fun a b v => ∀ j < 32, v.getLsbD j = (a.getLsbD j || b.getLsbD j)) ∧
    RegisterRule 0x26 .xor (fun a b v => ∀ j < 32, v.getLsbD j = (a.getLsbD j ^^ b.getLsbD j)) ∧
    RegisterRule 0x27 .nor (fun a b v => ∀ j < 32, v.getLsbD j = !(a.getLsbD j || b.getLsbD j))

/-- O11. ADD, SUB and ADDI write the exact signed sum or difference when it fits 32 bits, and otherwise raise Overflow
and write nothing, also when the destination is register 0. A sum does not fit exactly when the operands' signs
agree and the wrapped result's sign differs from the first operand's; a difference, when they differ. (R200, R202,
R210, R225) -/
def Obligations.OverflowArithmetic : Prop :=
  (∀ (rs rt rd sa : BitVec 5) (s : State),
      decode (specialWord rs rt rd sa 0x20) = .instr (.add rd rs rt) ∧
      OverflowRule (.add rd rs rt) rd ((readReg s rs).toInt + (readReg s rt).toInt) s) ∧
    (∀ (rs rt rd sa : BitVec 5) (s : State),
      decode (specialWord rs rt rd sa 0x22) = .instr (.sub rd rs rt) ∧
      OverflowRule (.sub rd rs rt) rd ((readReg s rs).toInt - (readReg s rt).toInt) s) ∧
    (∀ (rs rt : BitVec 5) (imm : Imm16) (s : State),
      decode (immediateWord 0x08 rs rt imm) = .instr (.addi rt rs imm) ∧
      OverflowRule (.addi rt rs imm) rt ((readReg s rs).toInt + imm.toInt) s) ∧
    ∀ a b : Word,
      (¬Fits (a.toInt + b.toInt) ↔ a.msb = b.msb ∧ (a + b).msb ≠ a.msb) ∧
      (¬Fits (a.toInt - b.toInt) ↔ a.msb ≠ b.msb ∧ (a - b).msb ≠ a.msb)

/-- O12. ADDIU adds the sign-extended immediate modulo 2^32; SLTI and SLTIU compare with the sign-extended immediate,
signed and unsigned; ANDI, ORI and XORI take the zero-extended immediate; LUI writes the immediate shifted left by
16, whatever its rs field holds. Each completes in every state, writes x[rt] only and advances. (R211, R212, R213,
R214, R215, R216, R217) -/
def Obligations.ImmediateForms : Prop :=
  ImmediateRule 0x09 .addiu (fun a imm v => (v.toNat : Int) = (a.toInt + imm.toInt) % 4294967296) ∧
    ImmediateRule 0x0A .slti (fun a imm v => (a.toInt < imm.toInt → v = 1) ∧ (imm.toInt ≤ a.toInt → v = 0)) ∧
    ImmediateRule 0x0B .sltiu (fun a imm v =>
      ((a.toNat : Int) < imm.toInt % 4294967296 → v = 1) ∧ (imm.toInt % 4294967296 ≤ (a.toNat : Int) → v = 0)) ∧
    ImmediateRule 0x0C .andi (fun a imm v => ∀ j < 32, v.getLsbD j = (a.getLsbD j && imm.getLsbD j)) ∧
    ImmediateRule 0x0D .ori (fun a imm v => ∀ j < 32, v.getLsbD j = (a.getLsbD j || imm.getLsbD j)) ∧
    ImmediateRule 0x0E .xori (fun a imm v => ∀ j < 32, v.getLsbD j = (a.getLsbD j ^^ imm.getLsbD j)) ∧
    ∀ (rs rt : BitVec 5) (imm : Imm16) (s : State),
      decode (immediateWord 0x0F rs rt imm) = .instr (.lui rt imm) ∧
      ∃ v : Word, v.toNat = imm.toNat * 65536 ∧ Completes (.lui rt imm) s (WritesRegister rt v s)

/-- O13. SLL, SRL and SRA shift x[rt] by the sa field, SLLV, SRLV and SRAV by x[rs] modulo 32: zeros enter from the
right or the left, or bit 31 is copied in. Each decodes whatever its ignored field holds, completes in every state,
writes x[rd] only and advances. (R218, R219, R220, R221, R222, R223) -/
def Obligations.Shifts : Prop :=
  ShiftRule 0x00 .sll leftBit ∧ ShiftRule 0x02 .srl rightBit ∧ ShiftRule 0x03 .sra arithmeticBit ∧
    VariableShiftRule 0x04 .sllv leftBit ∧ VariableShiftRule 0x06 .srlv rightBit ∧
    VariableShiftRule 0x07 .srav arithmeticBit

/-- O14. HI and LO together hold the exact signed product of MULT, and the exact unsigned product of MULTU. Each decodes
whatever its rd and sa fields hold, completes in every state, writes no general register, and advances. (R241, R242) -/
def Obligations.Multiply : Prop :=
  ∀ (rs rt rd sa : BitVec 5) (s : State),
    decode (specialWord rs rt rd sa 0x18) = .instr (.mult rs rt) ∧
    decode (specialWord rs rt rd sa 0x19) = .instr (.multu rs rt) ∧
    (∃ hi lo : Word, (hi ++ lo : BitVec 64).toInt = (readReg s rs).toInt * (readReg s rt).toInt ∧
      Completes (.mult rs rt) s fun t => WritesHiLo hi lo s t ∧ t.draws = s.draws) ∧
    ∃ hi lo : Word, (hi ++ lo : BitVec 64).toNat = (readReg s rs).toNat * (readReg s rt).toNat ∧
      Completes (.multu rs rt) s fun t => WritesHiLo hi lo s t ∧ t.draws = s.draws

/-- O15. DIV and DIVU decode whatever their rd and sa fields hold and complete in every state. For a divisor other than
0 the exact quotient q and remainder r satisfy a = q*b + r with |r| < |b| and r zero or of the sign of a, LO holds q
and HI holds r, narrowed to 32 bits; so -2^31 / -1 gives LO = 0x8000_0000 and HI = 0. For a divisor 0 no exception
is raised and HI and LO are two fresh values drawn from divByZero, about which nothing is said; that they are draws
numbered by a counter is the model's form (log 3). (R243, R244, R249) -/
def Obligations.Divide : Prop :=
  ∀ (rs rt rd sa : BitVec 5) (s : State),
    decode (specialWord rs rt rd sa 0x1A) = .instr (.div rs rt) ∧
    decode (specialWord rs rt rd sa 0x1B) = .instr (.divu rs rt) ∧
    (readReg s rt ≠ 0 →
      (∃ q r : Int, (readReg s rs).toInt = q * (readReg s rt).toInt + r ∧ r.natAbs < (readReg s rt).toInt.natAbs ∧
        0 ≤ r * (readReg s rs).toInt ∧
        Completes (.div rs rt) s fun t => WritesHiLo (BitVec.ofInt 32 r) (BitVec.ofInt 32 q) s t ∧ t.draws = s.draws) ∧
      ∃ q r : Word, (readReg s rs).toNat = q.toNat * (readReg s rt).toNat + r.toNat ∧ r.toNat < (readReg s rt).toNat ∧
        Completes (.divu rs rt) s fun t => WritesHiLo r q s t ∧ t.draws = s.draws) ∧
    (readReg s rt = 0 → ∀ i, (i = .div rs rt ∨ i = .divu rs rt) → ∃ m n, m ≠ n ∧ s.draws ≤ m ∧ s.draws ≤ n ∧
      Completes i s fun t => WritesHiLo (Config.divByZero m) (Config.divByZero n) s t ∧ m < t.draws ∧ n < t.draws)

/-- O16. MFHI and MFLO write HI and LO to x[rd] and nothing else; MTHI and MTLO write x[rs] to HI or LO and leave the
other and every register alone. Each decodes whatever its ignored fields hold, completes in every state, and
advances. (R245, R246, R247, R248) -/
def Obligations.HiLoMoves : Prop :=
  ∀ (rs rt rd sa : BitVec 5) (s : State),
    (decode (specialWord rs rt rd sa 0x10) = .instr (.mfhi rd) ∧ Completes (.mfhi rd) s (WritesRegister rd s.hi s)) ∧
    (decode (specialWord rs rt rd sa 0x12) = .instr (.mflo rd) ∧ Completes (.mflo rd) s (WritesRegister rd s.lo s)) ∧
    (decode (specialWord rs rt rd sa 0x11) = .instr (.mthi rs) ∧
      Completes (.mthi rs) s fun t => WritesHiLo (readReg s rs) s.lo s t ∧ t.draws = s.draws) ∧
    decode (specialWord rs rt rd sa 0x13) = .instr (.mtlo rs) ∧
      Completes (.mtlo rs) s fun t => WritesHiLo s.hi (readReg s rs) s t ∧ t.draws = s.draws

/-- O17. Each load raises AddressErrorLoad when x[rs] + sext(imm) is not a multiple of its size; else ends in the
exception, or the refusal, of its translation; else writes the sign- or zero-extended value the bus reads at the
physical address to x[rt], and nothing else but the pc and the slot. With rt = 0 the checks stay and the value is
discarded. BusReads says what the bus reads. (R302, R303, R304, R305, R306) -/
def Obligations.LoadRules : Prop :=
  LoadRule 0x20 .lb .byte (fun v => (v.setWidth 8).signExtend 32) ∧
    LoadRule 0x24 .lbu .byte (fun v => (v.setWidth 8).setWidth 32) ∧
    LoadRule 0x21 .lh .half (fun v => (v.setWidth 16).signExtend 32) ∧
    LoadRule 0x25 .lhu .half (fun v => (v.setWidth 16).setWidth 32) ∧ LoadRule 0x23 .lw .word (fun v => v)

/-- O18. Each store raises AddressErrorStore when x[rs] + sext(imm) is not a multiple of its size; else ends in the
exception of its translation; else stores the low bytes of x[rt] at the physical address, big-endian, leaving every
other byte of RAM alone. In an MMIO window a word store performs the register's write and every other store does
nothing; out of range it is dropped. No register changes. RAM is in canonical form, which StepKeepsInvariant says
every step keeps. (R307, R308, R309) -/
def Obligations.StoreRules : Prop :=
  StoreRule 0x28 .sb .byte ∧ StoreRule 0x29 .sh .half ∧ StoreRule 0x2B .sw .word

/-- O19. In RAM the bytes at the address, big-endian, zero-extended to 32 bits; in a window the register at the word
offset, or, for a byte or halfword, the matching bytes of the big-endian value of the register that contains it, and
0 at an offset that names no register; out of range 0. A sub-word or unlisted store to a window changes nothing; a
store to RAM, in canonical form as every step keeps it, writes the low bytes. (R121, R124, R125) -/
def Obligations.BusReads : Prop :=
  ∀ (s : State) (pa v : Word),
    (pa.toNat < s.params.ramSize →
      let b := fun k => (s.ram.read (pa.toNat + k)).toNat
      (busRead s pa .byte).toNat = b 0 ∧ (busRead s pa .half).toNat = b 0 * 256 + b 1 ∧
        (busRead s pa .word).toNat = b 0 * 16777216 + b 1 * 65536 + b 2 * 256 + b 3 ∧
        (s.ram.wf → ∀ w, StoresBytes pa.toNat w v s (busWrite s pa w v))) ∧
    (∀ bank o, route s.params pa = .mmio bank o →
      (∀ r, mmioReg s.params.layout bank o = some r →
        busRead s pa .word = mmioRead s.params.layout s.dev r ∧ busWrite s pa .word v = mmioWrite s r v) ∧
      (mmioReg s.params.layout bank o = none → busRead s pa .word = 0 ∧ busWrite s pa .word v = s) ∧
      (∀ r, mmioReg s.params.layout bank (o - o % 4) = some r →
        (∀ j < 32, (busRead s pa .byte).getLsbD j =
          (decide (j < 8) && (mmioRead s.params.layout s.dev r).getLsbD (8 * (3 - o % 4) + j))) ∧
        (o % 2 = 0 → ∀ j < 32, (busRead s pa .half).getLsbD j =
          (decide (j < 16) && (mmioRead s.params.layout s.dev r).getLsbD (8 * (2 - o % 4) + j)))) ∧
      (mmioReg s.params.layout bank (o - o % 4) = none → busRead s pa .byte = 0 ∧ busRead s pa .half = 0) ∧
      busWrite s pa .byte v = s ∧ busWrite s pa .half v = s) ∧
    (route s.params pa = .outOfRange → ∀ w, busRead s pa w = 0 ∧ busWrite s pa w v = s)

/-- O20. An address below ramSize is RAM; else one in a 0x10_0000-byte window of SP, DP, MI, VI, AI, PI or SI goes to
that device at its distance from the base; every other address is out of range, among them the holes at 0x0420_0000
and 0x0470_0000. (R120, R123) -/
def Obligations.Routing : Prop :=
  ∀ (p : Params) (pa : Word),
    (pa.toNat < p.ramSize → route p pa = .ram) ∧
    (p.ramSize ≤ pa.toNat →
      (∀ k, 0x040 ≤ k → k ≤ 0x048 → pa.toNat / 0x100000 = k →
        route p pa =
          if k = 0x040 then .mmio .sp (pa.toNat - 0x04000000)
          else if k = 0x041 then .mmio .dp (pa.toNat - 0x04100000)
          else if k = 0x043 then .mmio .mi (pa.toNat - 0x04300000)
          else if k = 0x044 then .mmio .vi (pa.toNat - 0x04400000)
          else if k = 0x045 then .mmio .ai (pa.toNat - 0x04500000)
          else if k = 0x046 then .mmio .pi (pa.toNat - 0x04600000)
          else if k = 0x048 then .mmio .si (pa.toNat - 0x04800000)
          else .outOfRange) ∧
      (pa.toNat < 0x04000000 ∨ 0x04900000 ≤ pa.toNat → route p pa = .outOfRange))

/-- O21. KSEG0 and KSEG1 map by stripping the segment prefix, 0xC000_0000 and above is identity and out of range, and
KUSEG is identity when tlbMode is 0. With tlbMode 1 a KUSEG address goes by the answer of tlbLookup: a hit gives its
address; a miss or an invalid entry raises TLBStore for a store and TLBLoad else, with and without the refill class;
Modified raises TLBModified for a store and is refused else. (R110, R111, R113, R114, R116) -/
def Obligations.Translation : Prop :=
  ∀ (p : Params) (va : Word) (kind : AccessKind),
    (va.toNat / 0x20000000 = 4 → ∃ pa : Word, pa.toNat = va.toNat - 0x80000000 ∧ translateAddress p va kind = .ok pa) ∧
    (va.toNat / 0x20000000 = 5 → ∃ pa : Word, pa.toNat = va.toNat - 0xA0000000 ∧ translateAddress p va kind = .ok pa) ∧
    (0xC0000000 ≤ va.toNat → translateAddress p va kind = .ok va ∧ (p.ramSize ≤ 0x04000000 → route p va = .outOfRange)) ∧
    (va.toNat < 0x80000000 → p.tlbMode = false → translateAddress p va kind = .ok va) ∧
    (va.toNat < 0x80000000 → p.tlbMode = true →
      (∀ pa, tlbLookup p va kind = .hit pa → translateAddress p va kind = .ok pa) ∧
      (tlbLookup p va kind = .refill →
        translateAddress p va kind = .raise (if kind = .store then .tlbStore va true else .tlbLoad va true)) ∧
      (tlbLookup p va kind = .invalid →
        translateAddress p va kind = .raise (if kind = .store then .tlbStore va false else .tlbLoad va false)) ∧
      (tlbLookup p va kind = .modified →
        translateAddress p va kind = if kind = .store then .raise (.tlbModified va) else .refuse .tlbLookupModifiedOnRead))

/-- O22. For va in KSEG0, va + 0x2000_0000 translates to the same physical address, for every kind of access; an aligned
load reads the same value at both, a misaligned one raises at both, and a store goes to the same address. (R112) -/
def Obligations.SegmentAlias : Prop :=
  ∀ (s : State) (va : Word), 0x80000000 ≤ va.toNat → va.toNat < 0xA0000000 →
    (∀ kind, translateAddress s.params (va + 0x20000000) kind = translateAddress s.params va kind) ∧
    ∀ w : Width,
      (va.toNat % w.bytes = 0 → load s (va + 0x20000000) w = load s va w ∧ storeAddress s (va + 0x20000000) w = storeAddress s va w) ∧
      (va.toNat % w.bytes ≠ 0 → load s va w = .raise (.addressErrorLoad va) ∧
        load s (va + 0x20000000) w = .raise (.addressErrorLoad (va + 0x20000000)) ∧
        storeAddress s va w = .raise (.addressErrorStore va) ∧
        storeAddress s (va + 0x20000000) w = .raise (.addressErrorStore (va + 0x20000000)))

/-- O23. After SW of v completes at an aligned address of RAM, a load of the word through the same address gives v, and
the bus reads, zero-extended, its bytes at the physical address and the three after it, from the most significant
down, and its halves at that address and two after it. RAM is in canonical form, as every step keeps it. (R101,
R135, R100) -/
def Obligations.StoreThenLoad : Prop :=
  ∀ (s t : State) (rs rt : RegNum) (imm : Imm16) (pa : Word),
    let va := readReg s rs + imm.signExtend 32
    let v := readReg s rt
    s.ram.wf → va.toNat % 4 = 0 → translateAddress s.params va .store = .ok pa → translateAddress s.params va .load = .ok pa →
    pa.toNat % 4 = 0 → pa.toNat + 4 ≤ s.params.ramSize → exec (.sw rt imm rs) s = .next t →
    load t va .word = .ok v ∧ busRead t pa .word = v ∧
      busRead t pa .half = (v >>> 16) ∧ busRead t (pa + 2) .half = (v &&& 0xFFFF) ∧
      busRead t pa .byte = (v >>> 24) ∧ busRead t (pa + 1) .byte = ((v >>> 16) &&& 0xFF) ∧
      busRead t (pa + 2) .byte = ((v >>> 8) &&& 0xFF) ∧ busRead t (pa + 3) .byte = (v &&& 0xFF)

/-- O24. When SW completes at the physical address the pc of the next step translates to, the next fetch gives the word
stored, with no fence or delay: also when SW stands in a delay slot and stores over the branch target. RAM is in
canonical form, as every step keeps it. (R140, R515, R141) -/
def Obligations.StoreThenFetch : Prop :=
  ∀ (s t : State) (rs rt : RegNum) (imm : Imm16) (pa : Word),
    let va := readReg s rs + imm.signExtend 32
    s.ram.wf → va.toNat % 4 = 0 → translateAddress s.params va .store = .ok pa → pa.toNat < s.params.ramSize →
    exec (.sw rt imm rs) s = .next t → t.pc.toNat % 4 = 0 → translateAddress s.params t.pc .fetch = .ok pa →
    fetch t = .ok (readReg s rt) ∧ fetch (countTick t) = .ok (readReg s rt)

/-- O25. Outside a delay slot each branch sets the slot to its target, pc + 4 + 4*imm when its condition holds and pc +
8 when not, and pc to the delay slot, and changes nothing else. BLEZ and BGTZ decode whatever their rt field holds.
(R270, R271, R272, R273, R274, R275) -/
def Obligations.ConditionalBranches : Prop :=
  ∀ (rs rt : BitVec 5) (imm : Imm16) (s : State),
    (decode (immediateWord 0x04 rs rt imm) = .instr (.beq rs rt imm) ∧
      decode (immediateWord 0x05 rs rt imm) = .instr (.bne rs rt imm) ∧
      decode (immediateWord 0x06 rs rt imm) = .instr (.blez rs imm) ∧
      decode (immediateWord 0x07 rs rt imm) = .instr (.bgtz rs imm) ∧
      decode (immediateWord 0x01 rs 0x00 imm) = .instr (.bltz rs imm) ∧
      decode (immediateWord 0x01 rs 0x01 imm) = .instr (.bgez rs imm)) ∧
    (s.pend.valid = false →
      let a := readReg s rs
      let goesTo := fun (taken : Prop) [Decidable taken] => Branches (branchTargetOf s.pc imm taken) 0 0 s
      Completes (.beq rs rt imm) s (goesTo (a = readReg s rt)) ∧ Completes (.bne rs rt imm) s (goesTo (a ≠ readReg s rt)) ∧
        Completes (.blez rs imm) s (goesTo (a.toInt ≤ 0)) ∧ Completes (.bgtz rs imm) s (goesTo (0 < a.toInt)) ∧
        Completes (.bltz rs imm) s (goesTo (a.toInt < 0)) ∧ Completes (.bgez rs imm) s (goesTo (0 ≤ a.toInt)))

/-- O26. Outside a delay slot: BLTZAL and BGEZAL branch by the value x[rs] had before the link, and write x[31] = pc + 8
whether taken or not; J and JAL go to the 26-bit target times 4 in the 256 MiB region of the delay slot; JR and JALR
go to the value x[rs] had before the link; JAL links in x[31] and JALR in x[rd], and in no register when rd is 0.
Nothing else changes. (R276, R277, R278, R279, R280, R281) -/
def Obligations.JumpsAndLinks : Prop :=
  ∀ (rs rt rd sa : BitVec 5) (imm : Imm16) (target : BitVec 26) (s : State),
    (decode (immediateWord 0x01 rs 0x10 imm) = .instr (.bltzal rs imm) ∧
      decode (immediateWord 0x01 rs 0x11 imm) = .instr (.bgezal rs imm) ∧
      decode (jumpWord 0x02 target) = .instr (.j target) ∧ decode (jumpWord 0x03 target) = .instr (.jal target) ∧
      decode (specialWord rs rt rd sa 0x08) = .instr (.jr rs) ∧
      decode (specialWord rs rt rd sa 0x09) = .instr (.jalr rd rs)) ∧
    (s.pend.valid = false →
      let a := readReg s rs
      let link := s.pc + 8
      let region := BitVec.ofNat 32 ((s.pc + 4).toNat / 268435456 * 268435456 + target.toNat * 4)
      Completes (.bltzal rs imm) s (Branches (branchTargetOf s.pc imm (a.toInt < 0)) 31 link s) ∧
        Completes (.bgezal rs imm) s (Branches (branchTargetOf s.pc imm (0 ≤ a.toInt)) 31 link s) ∧
        Completes (.j target) s (Branches region 0 0 s) ∧ Completes (.jal target) s (Branches region 31 link s) ∧
        Completes (.jr rs) s (Branches a 0 0 s) ∧ Completes (.jalr rd rs) s (Branches a rd link s))

/-- O27. Every branch, jump and ERET is refused with delaySlotControl when a branch is pending, before any effect; no
other instruction is ever refused with it, and none of the branches, jumps and ERET is refused outside a delay slot.
(R265) -/
def Obligations.ControlInDelaySlot : Prop :=
  ∀ (i : Instr) (s : State),
    (ControlTransfer i → s.pend.valid = true → exec i s = .refused .delaySlotControl) ∧
    (ControlTransfer i → s.pend.valid = false → ∀ r, exec i s ≠ .refused r) ∧
    (exec i s = .refused .delaySlotControl → ControlTransfer i ∧ s.pend.valid = true)

/-- O28. Whatever its code field holds, SYSCALL decodes and completes in every state in the entry of Syscall, ExcCode 8,
and BREAK in the entry of Breakpoint, ExcCode 9; EPC is the instruction's own address, or the branch's in a delay
slot. (R320, R321, R407) -/
def Obligations.SyscallAndBreak : Prop :=
  ∀ (code : BitVec 20) (s : State),
    decode (codeWord code 0x0C) = .instr (.syscall code) ∧ decode (codeWord code 0x0D) = .instr (.brk code) ∧
    Completes (.syscall code) s (Enters 8 none false false s) ∧ Completes (.brk code) s (Enters 9 none false false s)

/-- O29. Each trap enters Trap, ExcCode 13, when its comparison of x[rs] with x[rt], or with the sign-extended
immediate, holds, and changes nothing but the pc and the slot when it does not. The register forms decode whatever
their code field holds. (R322, R323, R324, R325, R326, R327, R328, R329, R330, R331, R332, R333) -/
def Obligations.ConditionalTraps : Prop :=
  RegisterTrapRule 0x30 .tge (fun a b => b.toInt ≤ a.toInt) ∧ RegisterTrapRule 0x31 .tgeu (fun a b => b.toNat ≤ a.toNat) ∧
    RegisterTrapRule 0x32 .tlt (fun a b => a.toInt < b.toInt) ∧ RegisterTrapRule 0x33 .tltu (fun a b => a.toNat < b.toNat) ∧
    RegisterTrapRule 0x34 .teq (fun a b => a = b) ∧ RegisterTrapRule 0x36 .tne (fun a b => a ≠ b) ∧
    ImmediateTrapRule 0x08 .tgei (fun a b => b.toInt ≤ a.toInt) ∧ ImmediateTrapRule 0x09 .tgeiu (fun a b => b.toNat ≤ a.toNat) ∧
    ImmediateTrapRule 0x0A .tlti (fun a b => a.toInt < b.toInt) ∧ ImmediateTrapRule 0x0B .tltiu (fun a b => a.toNat < b.toNat) ∧
    ImmediateTrapRule 0x0C .teqi (fun a b => a = b) ∧ ImmediateTrapRule 0x0E .tnei (fun a b => a ≠ b)

/-- O30. Whatever its low 11 bits hold, MTC0 completes in every state. Index, Status and EPC take the whole value;
Context takes bits 22:4, keeps bits 31:23 and has bits 3:0 zero; Count takes the value and restarts the phase;
Compare takes it and clears IP7; Cause takes bits 9:8 into IP1 and IP0 and keeps BD, ExcCode and IP7; BadVAddr and
the numbers that name no register take nothing. No other state changes. (R346, R347, R348, R349, R350, R351, R352,
R353) -/
def Obligations.MoveToCop0 : Prop :=
  ∀ (rt n : BitVec 5) (rest : BitVec 11) (s : State),
    let v := readReg s rt
    decode (cop0MoveWord 0x04 rt n rest) = .instr (.mtc0 rt n) ∧
    Completes (.mtc0 rt n) s fun t =>
      TakesCop0 n v s t ∧ SameRegisters s t ∧ SameHiLo s t ∧ SameStore s t ∧ Advanced s t

/-- O31. Whatever its low 11 bits hold, MFC0 completes in every state and writes x[rt] only: Index, Context, BadVAddr,
Count, Compare, Status, EPC as stored; Cause assembled from BD, the IP7 latch, the live aggregate line at bit 10,
IP1 and IP0, and ExcCode, every other bit 0; and 0 for a number that names no register. (R335, R345, R53, R56, R57,
R61) -/
def Obligations.MoveFromCop0 : Prop :=
  ∀ (rt n : BitVec 5) (rest : BitVec 11) (s : State),
    decode (cop0MoveWord 0x00 rt n rest) = .instr (.mfc0 rt n) ∧
    ∃ v : Word, Completes (.mfc0 rt n) s (WritesRegister rt v s) ∧
      (n = 0 → v = s.cp0.index) ∧ (n = 4 → v = s.cp0.context) ∧ (n = 8 → v = s.cp0.badVAddr) ∧
      (n = 9 → v = s.cp0.count) ∧ (n = 11 → v = s.cp0.compare) ∧ (n = 12 → v = s.cp0.status) ∧
      (n = 14 → v = s.cp0.epc) ∧
      (n = 13 → ∀ j < 32, v.getLsbD j =
        if j = 31 then s.cp0.bd
        else if j = 15 then s.cp0.ip7
        else if j = 10 then (List.range 32).any (fun k => s.dev.mi.pending.getLsbD k && s.dev.mi.mask.getLsbD k)
        else if j = 8 ∨ j = 9 then s.cp0.swIP.getLsbD (j - 8)
        else if 2 ≤ j ∧ j ≤ 6 then s.cp0.excCode.getLsbD (j - 2)
        else false) ∧
      (n ∉ [0, 4, 8, 9, 11, 12, 13, 14] → v = 0)

/-- O32. Whatever w[24:6] holds, outside a delay slot ERET completes: pc becomes EPC, Status bit 1 becomes 0 and every
other bit of Status stays, the slot is clear, and nothing else changes. In a delay slot it is refused. (R336) -/
def Obligations.ReturnFromException : Prop :=
  ∀ (rest : BitVec 19) (s : State),
    decode (cop0FunctionWord rest 0x18) = .instr .eret ∧ (s.pend.valid = true → exec .eret s = .refused .delaySlotControl) ∧
    (s.pend.valid = false → Completes .eret s fun t =>
      t.pc = s.cp0.epc ∧ t.pend.valid = false ∧
        (∀ j < 32, t.cp0.status.getLsbD j = (decide (j ≠ 1) && s.cp0.status.getLsbD j)) ∧
        t.cp0 = { s.cp0 with status := t.cp0.status } ∧ SameRegisters s t ∧ SameHiLo s t ∧ SameStore s t)

/-- O33. SYNC decodes whatever w[25:6] holds and CACHE whatever w[25:0] holds; each completes in every state and changes
nothing but the pc and the slot. (R337, R338) -/
def Obligations.SyncAndCache : Prop :=
  (∀ (code : BitVec 20) (s : State), decode (codeWord code 0x0F) = .instr .sync ∧ Completes .sync s (DoesNothing s)) ∧
    ∀ (base op : BitVec 5) (imm : Imm16) (s : State),
      decode (immediateWord 0x2F base op imm) = .instr (.cache op imm base) ∧
      Completes (.cache op imm base) s (DoesNothing s)

/-- O34. Whatever w[24:6] holds, the four TLB instructions decode, and in every state each is refused with
tlbOpBehaviour; no other instruction is. (R339, R340, R341, R342) -/
def Obligations.TlbInstructionsRefused : Prop :=
  (∀ (rest : BitVec 19),
      decode (cop0FunctionWord rest 0x01) = .instr .tlbr ∧ decode (cop0FunctionWord rest 0x02) = .instr .tlbwi ∧
      decode (cop0FunctionWord rest 0x06) = .instr .tlbwr ∧ decode (cop0FunctionWord rest 0x08) = .instr .tlbp) ∧
    ∀ (i : Instr) (s : State), exec i s = .refused .tlbOpBehaviour ↔ i ∈ [.tlbr, .tlbwi, .tlbwr, .tlbp]

/-- O35. Each of the 54 reserved rows of the table completes in every state in the entry of ReservedInstruction, ExcCode
10. So does, as a word of a step, every word that selects no row of class insn and none of the coprocessor space.
(R168, R343) -/
def Obligations.ReservedWords : Prop :=
  (∀ i ∈ reservedRows, ∀ s : State, Completes i s (Enters 10 none false false s)) ∧
    ∀ (w : Word) (s : State), (∀ i : Instr, i.row.cls ≠ .reserved → ¬i.row.selects w) →
      ∃ t, execWord w s = .next t ∧ Enters 10 none false false s t

/-- O36. For each of the eleven opcodes of the coprocessor space, and any value of the other 26 bits, the word decodes
to its row, and the row completes in every state in the entry of CoprocessorUnusable, ExcCode 11. (R169, R344) -/
def Obligations.CoprocessorWords : Prop :=
  ∀ row ∈ coprocessorRows, ∀ (rest : BitVec 26) (s : State),
    decode (jumpWord row.1 rest) = .instr row.2 ∧ Completes row.2 s (Enters 11 none false false s)

/-- O37. For every exception of the taxonomy and every state: EPC is the pc, or pc - 4 with BD set when a branch is
pending, and ExcCode is its code, all three frozen while EXL is 1; BadVAddr is written by address and TLB exceptions
only, and Context.BadVPN2 by TLB exceptions only; EXL becomes 1; the slot is cleared; pc goes to the vector; nothing
else changes. No interrupt is taken while EXL is 1. (R412, R413, R414, R415) -/
def Obligations.ExceptionEntry : Prop :=
  ∀ (e : Exc) (s : State), EntersWith e s (enterException e s) ∧ (s.cp0.status.getLsbD 1 = true → interruptTaken s = false)

/-- O38. From a state with EXL = 0, an exception entry followed by ERET gives back every register, HI, LO, all of memory
and all of Status, with the slot clear and pc at the interrupted instruction, or at its branch when it stood in a
delay slot. Status.IE is not changed by either. (R430, R432, R410, R336) -/
def Obligations.EntryThenReturn : Prop :=
  ∀ (e : Exc) (s : State), s.cp0.status.getLsbD 1 = false →
    ∃ t, exec .eret (enterException e s) = .next t ∧ t.pc = (if s.pend.valid then s.pc - 4 else s.pc) ∧
      t.pend.valid = false ∧ t.cp0.status = s.cp0.status ∧
      (enterException e s).cp0.status.getLsbD 0 = s.cp0.status.getLsbD 0 ∧ SameRegisters s t ∧ SameHiLo s t ∧ SameStore s t

/-- O39. When the machine has not refused and an interrupt is taken, the step is the entry of Interrupt, ExcCode 0 at
the general vector, with the tick, whatever stands at the pc, before the fetch and also before a delay slot; and the
state after it takes no interrupt. (R424, R425, R268, R422) -/
def Obligations.InterruptStep : Prop :=
  ∀ s : State, s.refused = false → interruptTaken s = true →
    ∃ u, Enters 0 none false false s u ∧ step s = .next (countTick u) ∧ interruptTaken (countTick u) = false

/-- O40. An interrupt is taken exactly when Status.IE is 1, Status.EXL is 0, and for some n in 0..7 both Status bit 8+n
and bit 8+n of the Cause read value are 1; the one selected is the highest such n, by the scan of R423, which the
spec adopts from an assumption of its source and calls unobservable in the state (D48). (R421, R423) -/
def Obligations.InterruptEligibility : Prop :=
  ∀ s : State,
    let eligibleAt := fun n => n < 8 ∧ s.cp0.status.getLsbD 0 = true ∧ s.cp0.status.getLsbD 1 = false ∧
      s.cp0.status.getLsbD (8 + n) = true ∧ (cop0Read s 13).getLsbD (8 + n) = true
    (interruptTaken s = true ↔ ∃ n, eligibleAt n) ∧
      ∀ n, selectedSource s = some n ↔ eligibleAt n ∧ ∀ m, eligibleAt m → m ≤ n

/-- O41. When no interrupt is taken, a step at a pc that is not a multiple of 4 enters AddressErrorLoad with BadVAddr
the pc, before any translation; at an aligned pc whose translation raises, it enters that exception; in each case
with the tick, and with BD and EPC as for the instruction, also in a delay slot. (R104, R402, R416, R264) -/
def Obligations.FetchFaults : Prop :=
  ∀ s : State, s.refused = false → interruptTaken s = false →
    (s.pc.toNat % 4 ≠ 0 → ∃ u, Enters 4 (some s.pc) false false s u ∧ step s = .next (countTick u)) ∧
    (s.pc.toNat % 4 = 0 → ∀ e, translateAddress s.params s.pc .fetch = .raise e →
      ∃ u, EntersWith e s u ∧ step s = .next (countTick u))

/-- O42. A tick adds one to the phase; when that reaches the divisor the phase is 0 and Count is one more modulo 2^32,
and IP7 is set if the new Count equals Compare and kept else; otherwise Count and IP7 stay. After n ticks from a
phase below the divisor, Count has advanced by (phase + n) / divisor and the phase is (phase + n) mod divisor. A
tick changes nothing else. (R436, R437, R439) -/
def Obligations.CountTick : Prop :=
  (∀ s : State,
      let t := countTick s
      (s.cp0.countPhase + 1 = s.params.countDivisor → t.cp0.countPhase = 0 ∧
        t.cp0.count.toNat = (s.cp0.count.toNat + 1) % 4294967296 ∧
        (t.cp0.ip7 = true ↔ s.cp0.ip7 = true ∨ t.cp0.count = s.cp0.compare)) ∧
      (s.cp0.countPhase + 1 ≠ s.params.countDivisor → t.cp0.countPhase = s.cp0.countPhase + 1 ∧
        t.cp0.count = s.cp0.count ∧ t.cp0.ip7 = s.cp0.ip7) ∧
      t = s.setCp0 { s.cp0 with countPhase := t.cp0.countPhase, count := t.cp0.count, ip7 := t.cp0.ip7 }) ∧
    ∀ (n : Nat) (s : State), s.cp0.countPhase < s.params.countDivisor →
      (countTick^[n] s).cp0.count = s.cp0.count + BitVec.ofNat 32 ((s.cp0.countPhase + n) / s.params.countDivisor) ∧
      (countTick^[n] s).cp0.countPhase = (s.cp0.countPhase + n) % s.params.countDivisor

/-- O43. If a step from a state with IP7 set answers a next state with IP7 clear, the instruction it ran was MTC0 to
register 11; if one from a state with IP7 clear answers a state with IP7 set, Count has just become equal to
Compare. (R58, R437, R438) -/
def Obligations.TimerLatch : Prop :=
  ∀ s t : State, step s = .next t →
    (s.cp0.ip7 = true → t.cp0.ip7 = false → ∃ rt, Fetches s (.mtc0 rt 11)) ∧
    (s.cp0.ip7 = false → t.cp0.ip7 = true → t.cp0.count = t.cp0.compare ∧ t.cp0.countPhase = 0)

/-- O44. If a step changes BadVAddr, then it entered an exception: EXL is 1, the slot is clear, ExcCode is 1 to 5 if EXL
was 0, pc is at a vector, and every general register, HI, LO, every byte of RAM and the devices are as before. No
instruction writes BadVAddr otherwise, MTC0 to it included. (R43, R413, R348, R401) -/
def Obligations.BadVAddrWriters : Prop :=
  ∀ s t : State, step s = .next t → t.cp0.badVAddr ≠ s.cp0.badVAddr →
    t.cp0.status.getLsbD 1 = true ∧ t.pend.valid = false ∧
      (s.cp0.status.getLsbD 1 = false → 1 ≤ t.cp0.excCode.toNat ∧ t.cp0.excCode.toNat ≤ 5) ∧
      (t.pc = 0xBFC00180 ∨ t.pc = 0x80000180 ∨ t.pc = 0x80000000) ∧ SameRegisters s t ∧ SameHiLo s t ∧ SameStore s t

/-- O45. If a step changes HI or LO, the instruction it fetched is one of those six. (R240, R35) -/
def Obligations.HiLoWriters : Prop :=
  ∀ s t : State, step s = .next t → ¬SameHiLo s t →
    ∃ i, Fetches s i ∧ ((∃ rs rt, i = .mult rs rt ∨ i = .multu rs rt ∨ i = .div rs rt ∨ i = .divu rs rt) ∨
      ∃ rs, i = .mthi rs ∨ i = .mtlo rs)

/-- O46. If a step changes a bit of Status other than EXL, the instruction it ran was MTC0 to register 12; if it clears
EXL, that or ERET. (R48, R49, R50, R51, R432) -/
def Obligations.StatusWriters : Prop :=
  ∀ s t : State, step s = .next t →
    (∀ j < 32, j ≠ 1 → t.cp0.status.getLsbD j ≠ s.cp0.status.getLsbD j → ∃ rt, Fetches s (.mtc0 rt 12)) ∧
    (s.cp0.status.getLsbD 1 = true → t.cp0.status.getLsbD 1 = false → Fetches s .eret ∨ ∃ rt, Fetches s (.mtc0 rt 12))

/-- O47. For every step that answers a next state there is a register outside which every general register reads as
before; register 0 reads 0. (R32, R31) -/
def Obligations.OneRegisterWritten : Prop :=
  ∀ s t : State, step s = .next t → readReg t 0 = 0 ∧ ∃ d, ∀ r, r ≠ d → readReg t r = readReg s r

/-- O48. A step never faults. It is refused only because the machine has refused before, because a branch, jump or ERET
stands in a delay slot, because the instruction is one of the four TLB instructions, or because tlbLookup answers
Modified to a fetch or load, which no well-formed parameter does (log 5 names the marks). (R20, R77, R114, R265,
R339, R340, R341, R342) -/
def Obligations.StepRefusals : Prop :=
  (∀ (s : State) (f : Fault), step s ≠ .fault f) ∧
    ∀ (s : State) (r : Refusal), step s = .refused r →
      (r = .alreadyRefused ∧ s.refused = true) ∨
      (s.refused = false ∧ interruptTaken s = false ∧
        ((r = .delaySlotControl ∧ s.pend.valid = true ∧ ∃ i, Fetches s i ∧ ControlTransfer i) ∨
          (r = .tlbOpBehaviour ∧ ∃ i ∈ [Instr.tlbr, .tlbwi, .tlbwr, .tlbp], Fetches s i) ∨
          (r = .tlbLookupModifiedOnRead ∧ s.params.tlbMode = true ∧ s.params.wellFormed = false)))

/-- O49. A step that answers a next state leaves the ROM image, the scheduler's cycle and events, the construction
parameters and the refusal mark as they were; and it drew no free value unless it ran DIV, DIVU or SW, the
instructions that reach the draws of R249 and R443. The count of draws is the model's own field (log 3, log 4).
(R73, R474, R475, R77, R10, R12, R249, R443) -/
def Obligations.StepLeavesHostState : Prop :=
  ∀ s t : State, step s = .next t →
    SameHost s t ∧ s.draws ≤ t.draws ∧
      (t.draws ≠ s.draws → ∃ i, Fetches s i ∧
        ((∃ rs rt, i = .div rs rt ∨ i = .divu rs rt) ∨ ∃ rt imm rs, i = .sw rt imm rs))

/-- O50. A word write of v to MI_INTR_MASK sets mask bit i when v[i] is 1 and v[16+i] is 0, clears it in the opposite
case, keeps it when both are 0, and when both are 1 gives it the bit of a value drawn freshly from miMaskConflict,
about which nothing is said; bits 31:16 are 0. Nothing else changes but the count of draws. That the conflicting
bits of one write come from one 16-bit draw, and the count, are the model's own (log 4). The address is that of the
construction's layout, any that is well formed (R128; log 6). (R443, R128) -/
def Obligations.MaskWrite : Prop :=
  ∀ (s : State) (v : Word), s.params.wellFormed = true →
    let t := busWrite s (registerAddress s.params.layout .miIntrMask) .word v
    (∃ k, s.draws ≤ k ∧ ∀ i < 16, t.dev.mi.mask.getLsbD i =
      match v.getLsbD i, v.getLsbD (16 + i) with
      | true, false => true
      | false, true => false
      | true, true => (Config.miMaskConflict k).getLsbD i
      | false, false => s.dev.mi.mask.getLsbD i) ∧
      (∀ i < 32, 16 ≤ i → t.dev.mi.mask.getLsbD i = false) ∧
      t = (s.setDev { s.dev with mi := { s.dev.mi with mask := t.dev.mi.mask } }).setDraws t.draws ∧
      ((∃ i < 16, v.getLsbD i = true ∧ v.getLsbD (16 + i) = true) ↔ t.draws = s.draws + 1) ∧
      ((∀ i < 16, v.getLsbD i = false ∨ v.getLsbD (16 + i) = false) ↔ t.draws = s.draws)

/-- O51. A word write with the ack bit to SP_STATUS (without its start bit), DP_STATUS, VI_STATUS, AI_STATUS, PI_STATUS
or SI_STATUS clears that device's MI.pending bit and busy flags and changes nothing else, and the same write again
changes nothing. A write without the ack bit (and, for SP, without the start bit) changes nothing, but for PI's IO-
busy bit alone, which clears ioBusy only. The addresses and bits are those of the construction's layout, any that is
well formed (R128; log 6). (R448, R449, R451, R453, R455, R459, R462, R466, R128) -/
def Obligations.Acknowledge : Prop :=
  ∀ (s : State) (v : Word), s.params.wellFormed = true →
    let l := s.params.layout
    let addr := registerAddress l
    (v.getLsbD l.sp.ackBit = true → v.getLsbD l.sp.startBit = false → AckRule s (addr .spStatus) v 0 id) ∧
    (v.getLsbD l.dp.ackBit = true →
      AckRule s (addr .dpStatus) v 5 (fun d => { d with dp := { busy := false, pipeBusy := false } })) ∧
    (v.getLsbD l.vi.ackBit = true → AckRule s (addr .viStatus) v 3 id) ∧
    (v.getLsbD l.ai.ackBit = true →
      AckRule s (addr .aiStatus) v 2 (fun d => { d with ai := { d.ai with dmaBusy := false } })) ∧
    (v.getLsbD l.pi.dmaBusyBit = true →
      AckRule s (addr .piStatus) v 4 (fun d => { d with pi := { d.pi with dmaBusy := false, ioBusy := false } })) ∧
    (v.getLsbD l.si.ackBit = true → AckRule s (addr .siStatus) v 1 id) ∧
    (v.getLsbD l.sp.ackBit = false → v.getLsbD l.sp.startBit = false → busWrite s (addr .spStatus) .word v = s) ∧
    (v.getLsbD l.dp.ackBit = false → busWrite s (addr .dpStatus) .word v = s) ∧
    (v.getLsbD l.vi.ackBit = false → busWrite s (addr .viStatus) .word v = s) ∧
    (v.getLsbD l.ai.ackBit = false → busWrite s (addr .aiStatus) .word v = s) ∧
    (v.getLsbD l.si.ackBit = false → busWrite s (addr .siStatus) .word v = s) ∧
    (v.getLsbD l.pi.dmaBusyBit = false → v.getLsbD l.pi.ioBusyBit = true →
      busWrite s (addr .piStatus) .word v = s.setDev { s.dev with pi := { s.dev.pi with ioBusy := false } }) ∧
    (v.getLsbD l.pi.dmaBusyBit = false → v.getLsbD l.pi.ioBusyBit = false → busWrite s (addr .piStatus) .word v = s)

/-- O52. On a machine that has not refused: raise and clear of a controller set and clear its MI.pending bit and change
nothing else, twice as once; VI.vblank raises VI's bit; DP.raiseInterrupt raises DP's and sets both DP flags. Bit 10
of Cause is 1 exactly when some bit is 1 in both MI.pending and MI.mask. (R441, R452, R454, R467) -/
def Obligations.RaiseAndClear : Prop :=
  (∀ (c : Controller) (s : State), s.refused = false →
      (let t := (HostOp.raise c).apply s;
        (∀ j < 32, t.dev.mi.pending.getLsbD j = (decide (j = miNumber c) || s.dev.mi.pending.getLsbD j)) ∧
          t = s.setDev { s.dev with mi := { s.dev.mi with pending := t.dev.mi.pending } } ∧ (HostOp.raise c).apply t = t) ∧
      (let t := (HostOp.clear c).apply s;
        (∀ j < 32, t.dev.mi.pending.getLsbD j = (decide (j ≠ miNumber c) && s.dev.mi.pending.getLsbD j)) ∧
          t = s.setDev { s.dev with mi := { s.dev.mi with pending := t.dev.mi.pending } } ∧ (HostOp.clear c).apply t = t)) ∧
    (∀ s : State, s.refused = false →
      HostOp.viVblank.apply s = (HostOp.raise .vi).apply s ∧
      HostOp.dpRaiseInterrupt.apply s =
        (HostOp.raise .dp).apply (s.setDev { s.dev with dp := { busy := true, pipeBusy := true } })) ∧
    ∀ s : State, (cop0Read s 13).getLsbD 10 = true ↔
      ∃ j < 32, s.dev.mi.pending.getLsbD j = true ∧ s.dev.mi.mask.getLsbD j = true

/-- O53. MI_MODE clears the pending bits written as 1; MI_VERSION and MI_INTR ignore writes; SP_CMD_START, and SP_STATUS
with its start bit after any ack, emit SpStart and raise SP's and DP's bits, as the host's kick does; VI,
AI_DRAM_ADDR, PI_DRAM_ADDR, PI_CART_ADDR and SI_DRAM_ADDR store; AI_LEN stores and a nonzero value sets busy;
PI_RD_LEN and PI_WR_LEN store, set the descriptor length and both flags. AI.completeDMA ends a busy transfer and
does nothing else; after a PI ack PI.completeDMA does nothing. That SpStart is counted in spStarts is the model's
own form (log 9). The addresses and bits are those of the construction's layout, any that is well formed (R128; log
6). (R128, R442, R444, R445, R450, R456, R457, R458, R460, R463) -/
def Obligations.RegisterWrites : Prop :=
  ∀ (s : State) (v : Word), s.params.wellFormed = true →
    let addr := registerAddress s.params.layout
    let started := s.setDev { s.dev with
      spStarts := s.dev.spStarts + 1, mi := { s.dev.mi with pending := s.dev.mi.pending ||| 0x21 } }
    busWrite s (addr .miMode) .word v =
        s.setDev { s.dev with mi := { s.dev.mi with pending := s.dev.mi.pending &&& ~~~v } } ∧
      busWrite s (addr .miVersion) .word v = s ∧ busWrite s (addr .miIntr) .word v = s ∧
      busWrite s (addr .spCmdStart) .word v = started ∧
      (v.getLsbD s.params.layout.sp.startBit = true → busWrite s (addr .spStatus) .word v = started) ∧
      (s.refused = false → HostOp.spKick.apply s = started) ∧
      busWrite s (addr .viOrigin) .word v = s.setDev { s.dev with vi := { s.dev.vi with origin := v } } ∧
      busWrite s (addr .viWidth) .word v = s.setDev { s.dev with vi := { s.dev.vi with width := v } } ∧
      busWrite s (addr .aiDramAddr) .word v = s.setDev { s.dev with ai := { s.dev.ai with dramAddr := v } } ∧
      busWrite s (addr .aiLen) .word v =
        s.setDev { s.dev with ai := { s.dev.ai with len := v, dmaBusy := if v = 0 then s.dev.ai.dmaBusy else true } } ∧
      busWrite s (addr .piDramAddr) .word v = s.setDev { s.dev with pi := { s.dev.pi with dramAddr := v } } ∧
      busWrite s (addr .piCartAddr) .word v = s.setDev { s.dev with pi := { s.dev.pi with cartAddr := v } } ∧
      busWrite s (addr .piRdLen) .word v =
        s.setDev { s.dev with pi := { s.dev.pi with rdLen := v, len := v, dmaBusy := true, ioBusy := true } } ∧
      busWrite s (addr .piWrLen) .word v =
        s.setDev { s.dev with pi := { s.dev.pi with wrLen := v, len := v, dmaBusy := true, ioBusy := true } } ∧
      busWrite s (addr .siDramAddr) .word v = s.setDev { s.dev with si := { s.dev.si with dramAddr := v } } ∧
      (s.refused = false → HostOp.aiCompleteDma.apply s =
        if s.dev.ai.dmaBusy then
          (HostOp.raise .ai).apply (s.setDev { s.dev with ai := { dramAddr := 0, len := 0, dmaBusy := false } })
        else s) ∧
      (v.getLsbD s.params.layout.pi.dmaBusyBit = true →
        HostOp.piCompleteDma.apply (busWrite s (addr .piStatus) .word v) = busWrite s (addr .piStatus) .word v)

/-- O54. In any well-formed layout each register reads, at its base and offset, the value R128 gives it: storage as
written, flags at their bits, 0 for the others; an address of a window that is no register's reads 0 and ignores a
word write. The layout at reset is the defaults of R128, which the model chooses among the parameters (log 6).
(R124, R126, R128, R442, R444, R445) -/
def Obligations.RegisterReads : Prop :=
  (State.reset.params.layout =
      { mi := { mode := 0, version := 4, intr := 8, intrMask := 12 }
        sp := { status := 0x40010, cmdStart := 0x40020, ackBit := 3, startBit := 0 }
        dp := { status := 12, pipeBusyBit := 5, busyBit := 6, ackBit := 6 }
        vi := { origin := 4, width := 8, status := 16, ackBit := 0 }
        ai := { dramAddr := 0, len := 4, status := 12, busyBit := 30, ackBit := 30 }
        pi := { dramAddr := 0, cartAddr := 4, rdLen := 8, wrLen := 12, status := 16, dmaBusyBit := 0, ioBusyBit := 1 }
        si := { dramAddr := 0, pifRd := 4, pifWr := 16, status := 24, ackBit := 0 } }) ∧
  ∀ s : State, s.params.wellFormed = true →
    let l := s.params.layout
    let read := fun r => busRead s (registerAddress l r) .word
    (read .miMode = 0 ∧ read .miVersion = 0x02020102 ∧ read .miIntr = s.dev.mi.pending ∧
      read .miIntrMask = s.dev.mi.mask) ∧
    (read .spStatus = 0 ∧ read .spCmdStart = 0 ∧ read .viStatus = 0 ∧ read .siStatus = 0) ∧
    (read .viOrigin = s.dev.vi.origin ∧ read .viWidth = s.dev.vi.width ∧ read .aiDramAddr = s.dev.ai.dramAddr ∧
      read .aiLen = s.dev.ai.len ∧ read .piDramAddr = s.dev.pi.dramAddr ∧ read .piCartAddr = s.dev.pi.cartAddr ∧
      read .piRdLen = s.dev.pi.rdLen ∧ read .piWrLen = s.dev.pi.wrLen ∧ read .siDramAddr = s.dev.si.dramAddr ∧
      read .siPifRd = s.dev.si.pifRd ∧ read .siPifWr = s.dev.si.pifWr) ∧
    (∀ pa bank o, route s.params pa = .mmio bank o → (∀ r, registerAddress l r ≠ pa) →
      busRead s pa .word = 0 ∧ ∀ v, busWrite s pa .word v = s) ∧
    ∀ j < 32,
      (read .dpStatus).getLsbD j =
          (decide (j = l.dp.pipeBusyBit) && s.dev.dp.pipeBusy || decide (j = l.dp.busyBit) && s.dev.dp.busy) ∧
        (read .aiStatus).getLsbD j = (decide (j = l.ai.busyBit) && s.dev.ai.dmaBusy) ∧
        (read .piStatus).getLsbD j =
          (decide (j = l.pi.dmaBusyBit) && s.dev.pi.dmaBusy || decide (j = l.pi.ioBusyBit) && s.dev.pi.ioBusy)

/-- O55. With a transfer armed, PI.completeDMA writes the ROM bytes from cartAddr to RAM from dramAddr, len + 1 of them
without wrap, zeros past the ROM's end, nothing past RAM's end, and leaves every other byte of RAM; it clears both
flags and the four registers and raises PI's bit, and changes nothing of the other devices. With none armed it does
nothing. RAM is in canonical form, as every step keeps it. (R461) -/
def Obligations.PiDma : Prop :=
  ∀ s : State, s.refused = false → s.ram.wf →
    let t := HostOp.piCompleteDma.apply s
    let dst := s.dev.pi.dramAddr.toNat
    let src := s.dev.pi.cartAddr.toNat
    (s.dev.pi.dmaBusy = false → t = s) ∧
    (s.dev.pi.dmaBusy = true →
      (∀ a, t.ram.read a =
        if dst ≤ a ∧ a < dst + (s.dev.pi.len.toNat + 1) ∧ a < s.params.ramSize then s.rom.getD (src + (a - dst)) 0
        else s.ram.read a) ∧
      t.dev.pi = { dramAddr := 0, cartAddr := 0, rdLen := 0, wrLen := 0, len := t.dev.pi.len, dmaBusy := false, ioBusy := false } ∧
      (∀ j < 32, t.dev.mi.pending.getLsbD j = (decide (j = 4) || s.dev.mi.pending.getLsbD j)) ∧
      t = (s.setRam t.ram).setDev { s.dev with
        pi := t.dev.pi, mi := { s.dev.mi with pending := t.dev.mi.pending } })

/-- O56. kickRead64B, also run by a word write to SI_PIF_ADDR_RD64B, writes the 64 bytes of PIF RAM to RAM from
dramAddr, dropping those past RAM's end; kickWrite64B, also run by a word write to SI_PIF_ADDR_WR64B, writes 64
bytes of RAM to PIF RAM, zeros past RAM's end. Each raises SI's bit; no other byte changes; the register written
keeps the value. RAM and PIF RAM are in canonical form, as every step keeps them. The addresses are those of the
construction's layout, any that is well formed (R128; log 6). (R464, R465, R128) -/
def Obligations.SiKicks : Prop :=
  (∀ s : State, s.refused = false → s.ram.wf → s.dev.si.pif.wf →
      let dst := s.dev.si.dramAddr.toNat
      let t := HostOp.siKickRead64B.apply s
      let u := HostOp.siKickWrite64B.apply s
      (∀ a, t.ram.read a =
        if dst ≤ a ∧ a < dst + 64 ∧ a < s.params.ramSize then s.dev.si.pif.read (a - dst) else s.ram.read a) ∧
      t = (s.setRam t.ram).setDev { s.dev with mi := { s.dev.mi with pending := s.dev.mi.pending ||| 2 } } ∧
      (∀ k < 64, u.dev.si.pif.read k = if dst + k < s.params.ramSize then s.ram.read (dst + k) else 0) ∧
      u = s.setDev { s.dev with
        si := { s.dev.si with pif := u.dev.si.pif }, mi := { s.dev.mi with pending := s.dev.mi.pending ||| 2 } }) ∧
    ∀ (s : State) (v : Word), s.params.wellFormed = true → s.refused = false →
      busWrite s (registerAddress s.params.layout .siPifRd) .word v =
          HostOp.siKickRead64B.apply (s.setDev { s.dev with si := { s.dev.si with pifRd := v } }) ∧
        busWrite s (registerAddress s.params.layout .siPifWr) .word v =
          HostOp.siKickWrite64B.apply (s.setDev { s.dev with si := { s.dev.si with pifWr := v } })

/-- O57. scheduleAt with a cycle after the counter appends the event and changes nothing else; with another cycle the
machine refuses. scheduleEvery with a start after the counter and an interval of at least 1 appends the events at
start, start + interval, and so on, times of them, in that order; with a start not after the counter and times at
least 1, or with interval 0, it refuses. That interval 0 is refused whatever times is, and that nothing is
registered after a refusal, are the model's reading (log 16). (R471, R472) -/
def Obligations.Scheduling : Prop :=
  ∀ (s : State) (start interval times : Nat) (callback : Callback), s.refused = false →
    (s.sched.cycle < start → (HostOp.scheduleAt start callback).apply s =
      s.setSched { s.sched with events := s.sched.events ++ [{ cycle := start, callback := callback }] }) ∧
    (start ≤ s.sched.cycle → (HostOp.scheduleAt start callback).apply s = s.setRefused true) ∧
    (s.sched.cycle < start → 1 ≤ interval → (HostOp.scheduleEvery start interval times callback).apply s =
      s.setSched { s.sched with
        events := s.sched.events ++
          List.ofFn fun k : Fin times => { cycle := start + k.val * interval, callback := callback } }) ∧
    (start ≤ s.sched.cycle → 1 ≤ times → (HostOp.scheduleEvery start interval times callback).apply s = s.setRefused true) ∧
    (interval = 0 → (HostOp.scheduleEvery start interval times callback).apply s = s.setRefused true)

/-- O58. A cycle advances the counter, takes the events of the new cycle out of the list, runs the callbacks of all of
them, each once, in the order they were registered, and then steps; when one of their operations is refused the run
ends. With m + 1 VI vblank events, and no other, registered for the next cycle, VI unmasked in MI and IE, IM2 set
and EXL clear, the cycle raises the one bit, and its step takes the one interrupt: EPC and BD by the pc before the
cycle, the general vector, no instruction run, no event left. That a cycle is a function beside step, and a callback
a fixed list of operations, is the model's own form (log 8, log 15). (R422, R427, R470, R473, R474) -/
def Obligations.SameCycleInterrupt : Prop :=
  (∀ s : State, s.refused = false →
      let now := s.sched.cycle + 1
      let due := s.sched.events.filter fun e => decide (e.cycle = now)
      let kept := s.sched.events.filter fun e => decide (e.cycle ≠ now)
      let u := applyAll (due.flatMap fun e => e.callback.ops) (s.setSched { cycle := now, events := kept })
      (u.refused = false → stepCycle s = HostOp.step.apply u) ∧ (u.refused = true → (stepCycle s).refused = true)) ∧
    ∀ (s : State) (m : Nat), s.refused = false →
      s.sched.events = List.replicate (m + 1) { cycle := s.sched.cycle + 1, callback := .andThen .viVblank .done } →
      s.cp0.status.getLsbD 0 = true → s.cp0.status.getLsbD 1 = false → s.cp0.status.getLsbD 10 = true →
      s.dev.mi.mask.getLsbD 3 = true →
      let t := stepCycle s
      t.refused = false ∧ t.sched = { cycle := s.sched.cycle + 1, events := [] } ∧
        t.dev = { s.dev with mi := { s.dev.mi with pending := s.dev.mi.pending ||| 8 } } ∧ t.cp0.excCode = 0 ∧
        t.cp0.bd = s.pend.valid ∧ t.cp0.epc = (if s.pend.valid then s.pc - 4 else s.pc) ∧
        t.pc = (if s.cp0.status.getLsbD 22 then 0xBFC00180 else 0x80000180) ∧ t.pend.valid = false ∧
        t.cp0.status.getLsbD 1 = true ∧ SameRegisters s t ∧ SameHiLo s t ∧ SameRam s t

/-- O59. When no event is due at the next cycle, a cycle only advances the counter and steps: to the next state where
the step answers one, and to the same state with the refusal mark where it is refused. A machine that has refused
stays as it is under every host operation and every cycle (log 10). (R470, R475, R77) -/
def Obligations.QuietCycle : Prop :=
  (∀ s : State, s.refused = false → (∀ e ∈ s.sched.events, e.cycle ≠ s.sched.cycle + 1) →
      let counted := s.setSched { s.sched with cycle := s.sched.cycle + 1 }
      (∀ t, step counted = .next t → stepCycle s = t) ∧
        ∀ r, step counted = .refused r → stepCycle s = counted.setRefused true) ∧
    ∀ (s : State) (op : HostOp) (n : Nat), s.refused = true → op.apply s = s ∧ stepCycles n s = s

/-- O60. On a machine that has not refused: the reads leave the machine as it is; a pc write sets pc and clears the
slot; a register write reads back and leaves the others, and one of register 0 is discarded; a COP0 write of any
value takes the bits CP0Write gives each register, as MTC0 does, and changes nothing else; a host load reads the
bus, KUSEG by identity even when tlbMode is 1, and changes nothing, and a host store writes the bus as a CPU store
does; a misaligned load or store sets the refusal mark, and the load gives no value. A raw RAM-buffer write below
ramSize writes that byte alone, which a raw read gives back, RAM being in canonical form as every step keeps it;
outside, a write is ignored and a read gives 0 (log 11). setROM replaces the image and nothing else. (R132, R348,
R353, R476, R477, R478, R479, R480) -/
def Obligations.HostAccess : Prop :=
  ∀ (s : State) (v : Word) (r : RegNum), s.refused = false →
    (HostOp.getPc.apply s = s ∧ (HostOp.getReg r).apply s = s ∧ (HostOp.cop0Read r).apply s = s ∧
      ∀ a, (HostOp.peekRam a).apply s = s) ∧
    (let t := (HostOp.setPc v).apply s;
      t.pc = v ∧ t.pend.valid = false ∧ t = (s.setPend t.pend).setPc v) ∧
    (let t := (HostOp.setReg r v).apply s;
      (r ≠ 0 → readReg t r = v) ∧ (∀ q, q ≠ r → readReg t q = readReg s q) ∧ readReg t 0 = 0 ∧ t = s.setRegs t.regs) ∧
    (let t := (HostOp.cop0Write r v).apply s;
      TakesCop0 r v s t ∧ t = s.setCp0 t.cp0) ∧
    (∀ w : Width,
      let reaches := fun pa : Word => hostLoad s v w = (some (busRead s pa w), s) ∧ (HostOp.load w v).apply s = s ∧
        ∀ x, (HostOp.store w v x).apply s = busWrite s pa w x
      (v.toNat % w.bytes = 0 → v.toNat < 0x80000000 → reaches v) ∧
      (v.toNat % w.bytes = 0 → 0x80000000 ≤ v.toNat → v.toNat < 0xA0000000 → reaches (v - 0x80000000)) ∧
      (v.toNat % w.bytes = 0 → 0xA0000000 ≤ v.toNat → v.toNat < 0xC0000000 → reaches (v - 0xA0000000)) ∧
      (v.toNat % w.bytes = 0 → 0xC0000000 ≤ v.toNat → reaches v) ∧
      (v.toNat % w.bytes ≠ 0 → hostLoad s v w = (none, s.setRefused true) ∧
        (HostOp.load w v).apply s = s.setRefused true ∧ ∀ x, (HostOp.store w v x).apply s = s.setRefused true)) ∧
    (∀ (a : Nat) (b : Byte),
      let t := (HostOp.pokeRam a b).apply s
      (a < s.params.ramSize → s.ram.wf →
        peekRam t a = b ∧ (∀ c, c ≠ a → t.ram.read c = s.ram.read c ∧ peekRam t c = peekRam s c) ∧ t = s.setRam t.ram) ∧
      (a < s.params.ramSize → peekRam s a = s.ram.read a) ∧
      (s.params.ramSize ≤ a → t = s ∧ peekRam s a = 0)) ∧
    ∀ bytes, (HostOp.setRom bytes).apply s = s.setRom bytes
end

