-- ==== Sys2Proof/Laws/State.lean ====
section
/-! SUPPORT. One lemma a field an update of the state, so that no later proof unfolds a record update. -/

namespace Sys2Proof.Machine

section setRegs
variable (s : State) (v : Vector Word 32)
@[simp] theorem setRegs_regs : (s.setRegs v).regs = v := rfl
@[simp] theorem setRegs_hi : (s.setRegs v).hi = s.hi := rfl
@[simp] theorem setRegs_lo : (s.setRegs v).lo = s.lo := rfl
@[simp] theorem setRegs_pc : (s.setRegs v).pc = s.pc := rfl
@[simp] theorem setRegs_pend : (s.setRegs v).pend = s.pend := rfl
@[simp] theorem setRegs_cp0 : (s.setRegs v).cp0 = s.cp0 := rfl
@[simp] theorem setRegs_ram : (s.setRegs v).ram = s.ram := rfl
@[simp] theorem setRegs_dev : (s.setRegs v).dev = s.dev := rfl
@[simp] theorem setRegs_rom : (s.setRegs v).rom = s.rom := rfl
@[simp] theorem setRegs_sched : (s.setRegs v).sched = s.sched := rfl
@[simp] theorem setRegs_params : (s.setRegs v).params = s.params := rfl
@[simp] theorem setRegs_draws : (s.setRegs v).draws = s.draws := rfl
@[simp] theorem setRegs_refused : (s.setRegs v).refused = s.refused := rfl
end setRegs

section setHi
variable (s : State) (v : Word)
@[simp] theorem setHi_regs : (s.setHi v).regs = s.regs := rfl
@[simp] theorem setHi_hi : (s.setHi v).hi = v := rfl
@[simp] theorem setHi_lo : (s.setHi v).lo = s.lo := rfl
@[simp] theorem setHi_pc : (s.setHi v).pc = s.pc := rfl
@[simp] theorem setHi_pend : (s.setHi v).pend = s.pend := rfl
@[simp] theorem setHi_cp0 : (s.setHi v).cp0 = s.cp0 := rfl
@[simp] theorem setHi_ram : (s.setHi v).ram = s.ram := rfl
@[simp] theorem setHi_dev : (s.setHi v).dev = s.dev := rfl
@[simp] theorem setHi_rom : (s.setHi v).rom = s.rom := rfl
@[simp] theorem setHi_sched : (s.setHi v).sched = s.sched := rfl
@[simp] theorem setHi_params : (s.setHi v).params = s.params := rfl
@[simp] theorem setHi_draws : (s.setHi v).draws = s.draws := rfl
@[simp] theorem setHi_refused : (s.setHi v).refused = s.refused := rfl
end setHi

section setLo
variable (s : State) (v : Word)
@[simp] theorem setLo_regs : (s.setLo v).regs = s.regs := rfl
@[simp] theorem setLo_hi : (s.setLo v).hi = s.hi := rfl
@[simp] theorem setLo_lo : (s.setLo v).lo = v := rfl
@[simp] theorem setLo_pc : (s.setLo v).pc = s.pc := rfl
@[simp] theorem setLo_pend : (s.setLo v).pend = s.pend := rfl
@[simp] theorem setLo_cp0 : (s.setLo v).cp0 = s.cp0 := rfl
@[simp] theorem setLo_ram : (s.setLo v).ram = s.ram := rfl
@[simp] theorem setLo_dev : (s.setLo v).dev = s.dev := rfl
@[simp] theorem setLo_rom : (s.setLo v).rom = s.rom := rfl
@[simp] theorem setLo_sched : (s.setLo v).sched = s.sched := rfl
@[simp] theorem setLo_params : (s.setLo v).params = s.params := rfl
@[simp] theorem setLo_draws : (s.setLo v).draws = s.draws := rfl
@[simp] theorem setLo_refused : (s.setLo v).refused = s.refused := rfl
end setLo

section setPc
variable (s : State) (v : Word)
@[simp] theorem setPc_regs : (s.setPc v).regs = s.regs := rfl
@[simp] theorem setPc_hi : (s.setPc v).hi = s.hi := rfl
@[simp] theorem setPc_lo : (s.setPc v).lo = s.lo := rfl
@[simp] theorem setPc_pc : (s.setPc v).pc = v := rfl
@[simp] theorem setPc_pend : (s.setPc v).pend = s.pend := rfl
@[simp] theorem setPc_cp0 : (s.setPc v).cp0 = s.cp0 := rfl
@[simp] theorem setPc_ram : (s.setPc v).ram = s.ram := rfl
@[simp] theorem setPc_dev : (s.setPc v).dev = s.dev := rfl
@[simp] theorem setPc_rom : (s.setPc v).rom = s.rom := rfl
@[simp] theorem setPc_sched : (s.setPc v).sched = s.sched := rfl
@[simp] theorem setPc_params : (s.setPc v).params = s.params := rfl
@[simp] theorem setPc_draws : (s.setPc v).draws = s.draws := rfl
@[simp] theorem setPc_refused : (s.setPc v).refused = s.refused := rfl
end setPc

section setPend
variable (s : State) (v : Pending)
@[simp] theorem setPend_regs : (s.setPend v).regs = s.regs := rfl
@[simp] theorem setPend_hi : (s.setPend v).hi = s.hi := rfl
@[simp] theorem setPend_lo : (s.setPend v).lo = s.lo := rfl
@[simp] theorem setPend_pc : (s.setPend v).pc = s.pc := rfl
@[simp] theorem setPend_pend : (s.setPend v).pend = v := rfl
@[simp] theorem setPend_cp0 : (s.setPend v).cp0 = s.cp0 := rfl
@[simp] theorem setPend_ram : (s.setPend v).ram = s.ram := rfl
@[simp] theorem setPend_dev : (s.setPend v).dev = s.dev := rfl
@[simp] theorem setPend_rom : (s.setPend v).rom = s.rom := rfl
@[simp] theorem setPend_sched : (s.setPend v).sched = s.sched := rfl
@[simp] theorem setPend_params : (s.setPend v).params = s.params := rfl
@[simp] theorem setPend_draws : (s.setPend v).draws = s.draws := rfl
@[simp] theorem setPend_refused : (s.setPend v).refused = s.refused := rfl
end setPend

section setCp0
variable (s : State) (v : Cop0)
@[simp] theorem setCp0_regs : (s.setCp0 v).regs = s.regs := rfl
@[simp] theorem setCp0_hi : (s.setCp0 v).hi = s.hi := rfl
@[simp] theorem setCp0_lo : (s.setCp0 v).lo = s.lo := rfl
@[simp] theorem setCp0_pc : (s.setCp0 v).pc = s.pc := rfl
@[simp] theorem setCp0_pend : (s.setCp0 v).pend = s.pend := rfl
@[simp] theorem setCp0_cp0 : (s.setCp0 v).cp0 = v := rfl
@[simp] theorem setCp0_ram : (s.setCp0 v).ram = s.ram := rfl
@[simp] theorem setCp0_dev : (s.setCp0 v).dev = s.dev := rfl
@[simp] theorem setCp0_rom : (s.setCp0 v).rom = s.rom := rfl
@[simp] theorem setCp0_sched : (s.setCp0 v).sched = s.sched := rfl
@[simp] theorem setCp0_params : (s.setCp0 v).params = s.params := rfl
@[simp] theorem setCp0_draws : (s.setCp0 v).draws = s.draws := rfl
@[simp] theorem setCp0_refused : (s.setCp0 v).refused = s.refused := rfl
end setCp0

section setRam
variable (s : State) (v : Memory)
@[simp] theorem setRam_regs : (s.setRam v).regs = s.regs := rfl
@[simp] theorem setRam_hi : (s.setRam v).hi = s.hi := rfl
@[simp] theorem setRam_lo : (s.setRam v).lo = s.lo := rfl
@[simp] theorem setRam_pc : (s.setRam v).pc = s.pc := rfl
@[simp] theorem setRam_pend : (s.setRam v).pend = s.pend := rfl
@[simp] theorem setRam_cp0 : (s.setRam v).cp0 = s.cp0 := rfl
@[simp] theorem setRam_ram : (s.setRam v).ram = v := rfl
@[simp] theorem setRam_dev : (s.setRam v).dev = s.dev := rfl
@[simp] theorem setRam_rom : (s.setRam v).rom = s.rom := rfl
@[simp] theorem setRam_sched : (s.setRam v).sched = s.sched := rfl
@[simp] theorem setRam_params : (s.setRam v).params = s.params := rfl
@[simp] theorem setRam_draws : (s.setRam v).draws = s.draws := rfl
@[simp] theorem setRam_refused : (s.setRam v).refused = s.refused := rfl
end setRam

section setDev
variable (s : State) (v : Devices)
@[simp] theorem setDev_regs : (s.setDev v).regs = s.regs := rfl
@[simp] theorem setDev_hi : (s.setDev v).hi = s.hi := rfl
@[simp] theorem setDev_lo : (s.setDev v).lo = s.lo := rfl
@[simp] theorem setDev_pc : (s.setDev v).pc = s.pc := rfl
@[simp] theorem setDev_pend : (s.setDev v).pend = s.pend := rfl
@[simp] theorem setDev_cp0 : (s.setDev v).cp0 = s.cp0 := rfl
@[simp] theorem setDev_ram : (s.setDev v).ram = s.ram := rfl
@[simp] theorem setDev_dev : (s.setDev v).dev = v := rfl
@[simp] theorem setDev_rom : (s.setDev v).rom = s.rom := rfl
@[simp] theorem setDev_sched : (s.setDev v).sched = s.sched := rfl
@[simp] theorem setDev_params : (s.setDev v).params = s.params := rfl
@[simp] theorem setDev_draws : (s.setDev v).draws = s.draws := rfl
@[simp] theorem setDev_refused : (s.setDev v).refused = s.refused := rfl
end setDev

section setRom
variable (s : State) (v : List Byte)
@[simp] theorem setRom_regs : (s.setRom v).regs = s.regs := rfl
@[simp] theorem setRom_hi : (s.setRom v).hi = s.hi := rfl
@[simp] theorem setRom_lo : (s.setRom v).lo = s.lo := rfl
@[simp] theorem setRom_pc : (s.setRom v).pc = s.pc := rfl
@[simp] theorem setRom_pend : (s.setRom v).pend = s.pend := rfl
@[simp] theorem setRom_cp0 : (s.setRom v).cp0 = s.cp0 := rfl
@[simp] theorem setRom_ram : (s.setRom v).ram = s.ram := rfl
@[simp] theorem setRom_dev : (s.setRom v).dev = s.dev := rfl
@[simp] theorem setRom_rom : (s.setRom v).rom = v := rfl
@[simp] theorem setRom_sched : (s.setRom v).sched = s.sched := rfl
@[simp] theorem setRom_params : (s.setRom v).params = s.params := rfl
@[simp] theorem setRom_draws : (s.setRom v).draws = s.draws := rfl
@[simp] theorem setRom_refused : (s.setRom v).refused = s.refused := rfl
end setRom

section setSched
variable (s : State) (v : Sched)
@[simp] theorem setSched_regs : (s.setSched v).regs = s.regs := rfl
@[simp] theorem setSched_hi : (s.setSched v).hi = s.hi := rfl
@[simp] theorem setSched_lo : (s.setSched v).lo = s.lo := rfl
@[simp] theorem setSched_pc : (s.setSched v).pc = s.pc := rfl
@[simp] theorem setSched_pend : (s.setSched v).pend = s.pend := rfl
@[simp] theorem setSched_cp0 : (s.setSched v).cp0 = s.cp0 := rfl
@[simp] theorem setSched_ram : (s.setSched v).ram = s.ram := rfl
@[simp] theorem setSched_dev : (s.setSched v).dev = s.dev := rfl
@[simp] theorem setSched_rom : (s.setSched v).rom = s.rom := rfl
@[simp] theorem setSched_sched : (s.setSched v).sched = v := rfl
@[simp] theorem setSched_params : (s.setSched v).params = s.params := rfl
@[simp] theorem setSched_draws : (s.setSched v).draws = s.draws := rfl
@[simp] theorem setSched_refused : (s.setSched v).refused = s.refused := rfl
end setSched

section setDraws
variable (s : State) (v : Nat)
@[simp] theorem setDraws_regs : (s.setDraws v).regs = s.regs := rfl
@[simp] theorem setDraws_hi : (s.setDraws v).hi = s.hi := rfl
@[simp] theorem setDraws_lo : (s.setDraws v).lo = s.lo := rfl
@[simp] theorem setDraws_pc : (s.setDraws v).pc = s.pc := rfl
@[simp] theorem setDraws_pend : (s.setDraws v).pend = s.pend := rfl
@[simp] theorem setDraws_cp0 : (s.setDraws v).cp0 = s.cp0 := rfl
@[simp] theorem setDraws_ram : (s.setDraws v).ram = s.ram := rfl
@[simp] theorem setDraws_dev : (s.setDraws v).dev = s.dev := rfl
@[simp] theorem setDraws_rom : (s.setDraws v).rom = s.rom := rfl
@[simp] theorem setDraws_sched : (s.setDraws v).sched = s.sched := rfl
@[simp] theorem setDraws_params : (s.setDraws v).params = s.params := rfl
@[simp] theorem setDraws_draws : (s.setDraws v).draws = v := rfl
@[simp] theorem setDraws_refused : (s.setDraws v).refused = s.refused := rfl
end setDraws

section setRefused
variable (s : State) (v : Bool)
@[simp] theorem setRefused_regs : (s.setRefused v).regs = s.regs := rfl
@[simp] theorem setRefused_hi : (s.setRefused v).hi = s.hi := rfl
@[simp] theorem setRefused_lo : (s.setRefused v).lo = s.lo := rfl
@[simp] theorem setRefused_pc : (s.setRefused v).pc = s.pc := rfl
@[simp] theorem setRefused_pend : (s.setRefused v).pend = s.pend := rfl
@[simp] theorem setRefused_cp0 : (s.setRefused v).cp0 = s.cp0 := rfl
@[simp] theorem setRefused_ram : (s.setRefused v).ram = s.ram := rfl
@[simp] theorem setRefused_dev : (s.setRefused v).dev = s.dev := rfl
@[simp] theorem setRefused_rom : (s.setRefused v).rom = s.rom := rfl
@[simp] theorem setRefused_sched : (s.setRefused v).sched = s.sched := rfl
@[simp] theorem setRefused_params : (s.setRefused v).params = s.params := rfl
@[simp] theorem setRefused_draws : (s.setRefused v).draws = s.draws := rfl
@[simp] theorem setRefused_refused : (s.setRefused v).refused = v := rfl
end setRefused

/-- Two states with the same fields are the same. -/
theorem State.ext_fields {s t : State} (h1 : s.regs = t.regs) (h2 : s.hi = t.hi) (h3 : s.lo = t.lo) (h4 : s.pc = t.pc)
    (h5 : s.pend = t.pend) (h6 : s.cp0 = t.cp0) (h7 : s.ram = t.ram) (h8 : s.dev = t.dev) (h9 : s.rom = t.rom)
    (h10 : s.sched = t.sched) (h11 : s.params = t.params) (h12 : s.draws = t.draws) (h13 : s.refused = t.refused) :
    s = t := by
  cases s
  cases t
  simp_all

end Sys2Proof.Machine
end

