-- ==== Sys2Proof/Laws/Ops.lean ====
section
/-! SUPPORT. What each shared operation of Machine/Ops.lean can do, said once. -/

namespace Sys2Proof.Machine

/-! ### Registers -/

@[simp] theorem readReg_zero (s : State) : readReg s 0 = 0 := rfl

theorem readReg_of_ne {s : State} {r : RegNum} (h : r ≠ 0) :
    readReg s r = s.regs[r.toNat]'(by have := r.isLt; omega) := if_neg h

/-- Reading depends on the register file alone. -/
theorem readReg_congr {s t : State} (h : t.regs = s.regs) (r : RegNum) : readReg t r = readReg s r := by
  unfold readReg
  split
  · rfl
  · simp only [h]

/-- A register read after a register write (10_state.md R31). -/
theorem readReg_writeReg (s : State) (d r : RegNum) (v : Word) :
    readReg (writeReg s d v) r = if r = d ∧ d ≠ 0 then v else readReg s r := by
  by_cases hd : d = 0
  · simp [writeReg, hd]
  · by_cases hr : r = 0
    · subst hr
      rw [if_neg (fun h => hd h.1.symm)]
      rfl
    · rw [readReg_of_ne hr, writeReg]
      rw [if_neg hd]
      by_cases h : r = d
      · subst h
        rw [if_pos ⟨rfl, hd⟩]
        exact Vector.getElem_set_self _
      · rw [if_neg (fun k => h k.1), readReg_of_ne hr]
        exact Vector.getElem_set_ne d.isLt _ (fun e => h (BitVec.eq_of_toNat_eq e.symm))

/-- A register write is a change of the register file alone, and keeps its entry 0. -/
theorem writeReg_cases (s : State) (d : RegNum) (v : Word) :
    ∃ regs, writeReg s d v = s.setRegs regs ∧ regs[0] = s.regs[0] := by
  unfold writeReg
  split
  · exact ⟨s.regs, rfl, rfl⟩
  · next h =>
    refine ⟨_, rfl, ?_⟩
    rw [Vector.getElem_set_ne]
    exact fun e => h (BitVec.eq_of_toNat_eq e)

section writeReg
variable (s : State) (d : RegNum) (v : Word)
@[simp] theorem writeReg_hi : (writeReg s d v).hi = s.hi := by unfold writeReg; split <;> rfl
@[simp] theorem writeReg_lo : (writeReg s d v).lo = s.lo := by unfold writeReg; split <;> rfl
@[simp] theorem writeReg_pc : (writeReg s d v).pc = s.pc := by unfold writeReg; split <;> rfl
@[simp] theorem writeReg_pend : (writeReg s d v).pend = s.pend := by unfold writeReg; split <;> rfl
@[simp] theorem writeReg_cp0 : (writeReg s d v).cp0 = s.cp0 := by unfold writeReg; split <;> rfl
@[simp] theorem writeReg_ram : (writeReg s d v).ram = s.ram := by unfold writeReg; split <;> rfl
@[simp] theorem writeReg_dev : (writeReg s d v).dev = s.dev := by unfold writeReg; split <;> rfl
@[simp] theorem writeReg_rom : (writeReg s d v).rom = s.rom := by unfold writeReg; split <;> rfl
@[simp] theorem writeReg_sched : (writeReg s d v).sched = s.sched := by unfold writeReg; split <;> rfl
@[simp] theorem writeReg_params : (writeReg s d v).params = s.params := by unfold writeReg; split <;> rfl
@[simp] theorem writeReg_draws : (writeReg s d v).draws = s.draws := by unfold writeReg; split <;> rfl
@[simp] theorem writeReg_refused : (writeReg s d v).refused = s.refused := by unfold writeReg; split <;> rfl
end writeReg

/-! ### The commit -/

/-- The pc after an ordinary instruction (42_branch.md R261, R263). -/
theorem retire_pc (s : State) : (retire s).pc = if s.pend.valid then s.pend.target else s.pc + 4 := by
  unfold retire
  split <;> rfl

/-- The slot after an ordinary instruction. -/
theorem retire_pend (s : State) : (retire s).pend = { s.pend with valid := false } := by
  unfold retire
  split
  · rfl
  · next h =>
    have : s.pend = { s.pend with valid := s.pend.valid } := rfl
    rw [setPc_pend, this, Bool.eq_false_iff.mpr h]

section retire
variable (s : State)
@[simp] theorem retire_pend_valid : (retire s).pend.valid = false := by rw [retire_pend]
@[simp] theorem retire_regs : (retire s).regs = s.regs := by unfold retire; split <;> rfl
@[simp] theorem retire_hi : (retire s).hi = s.hi := by unfold retire; split <;> rfl
@[simp] theorem retire_lo : (retire s).lo = s.lo := by unfold retire; split <;> rfl
@[simp] theorem retire_cp0 : (retire s).cp0 = s.cp0 := by unfold retire; split <;> rfl
@[simp] theorem retire_ram : (retire s).ram = s.ram := by unfold retire; split <;> rfl
@[simp] theorem retire_dev : (retire s).dev = s.dev := by unfold retire; split <;> rfl
@[simp] theorem retire_rom : (retire s).rom = s.rom := by unfold retire; split <;> rfl
@[simp] theorem retire_sched : (retire s).sched = s.sched := by unfold retire; split <;> rfl
@[simp] theorem retire_params : (retire s).params = s.params := by unfold retire; split <;> rfl
@[simp] theorem retire_draws : (retire s).draws = s.draws := by unfold retire; split <;> rfl
@[simp] theorem retire_refused : (retire s).refused = s.refused := by unfold retire; split <;> rfl
@[simp] theorem readReg_retire (r : RegNum) : readReg (retire s) r = readReg s r := readReg_congr (retire_regs s) r
end retire

/-- Completing is retiring. -/
theorem complete_eq (s : State) : complete s = .next (retire s) := rfl

/-- What `branchTo` can do: refuse in a delay slot, else set the slot (42_branch.md R262, R265). -/
theorem branchTo_cases (target : Word) (s : State) :
    (s.pend.valid = true ∧ branchTo target s = .refused .delaySlotControl) ∨
    (s.pend.valid = false ∧
      branchTo target s = .next ((s.setPend { target := target, valid := true }).setPc (s.pc + 4))) := by
  unfold branchTo
  cases h : s.pend.valid
  · exact .inr ⟨rfl, if_neg (by simp)⟩
  · exact .inl ⟨rfl, if_pos rfl⟩

/-! ### Exceptions -/

theorem raise_eq (e : Exc) (s : State) : raise e s = .next (enterException e s) := rfl

section enter
variable (e : Exc) (s : State)
@[simp] theorem enterException_regs : (enterException e s).regs = s.regs := rfl
@[simp] theorem enterException_hi : (enterException e s).hi = s.hi := rfl
@[simp] theorem enterException_lo : (enterException e s).lo = s.lo := rfl
@[simp] theorem enterException_pc : (enterException e s).pc = vector s.cp0 e := rfl
@[simp] theorem enterException_pend : (enterException e s).pend = { s.pend with valid := false } := rfl
@[simp] theorem enterException_cp0 : (enterException e s).cp0 = cop0Entered s.cp0 e s.pc s.pend.valid := rfl
@[simp] theorem enterException_ram : (enterException e s).ram = s.ram := rfl
@[simp] theorem enterException_dev : (enterException e s).dev = s.dev := rfl
@[simp] theorem enterException_rom : (enterException e s).rom = s.rom := rfl
@[simp] theorem enterException_sched : (enterException e s).sched = s.sched := rfl
@[simp] theorem enterException_params : (enterException e s).params = s.params := rfl
@[simp] theorem enterException_draws : (enterException e s).draws = s.draws := rfl
@[simp] theorem enterException_refused : (enterException e s).refused = s.refused := rfl
@[simp] theorem readReg_enterException (r : RegNum) : readReg (enterException e s) r = readReg s r := rfl
end enter

section returning
variable (s : State)
@[simp] theorem returnFromException_pc : (returnFromException s).pc = s.cp0.epc := rfl
@[simp] theorem returnFromException_pend : (returnFromException s).pend = { s.pend with valid := false } := rfl
@[simp] theorem returnFromException_cp0 :
    (returnFromException s).cp0 = { s.cp0 with status := s.cp0.status &&& ~~~exlBit } := rfl
@[simp] theorem returnFromException_regs : (returnFromException s).regs = s.regs := rfl
@[simp] theorem returnFromException_ram : (returnFromException s).ram = s.ram := rfl
@[simp] theorem returnFromException_dev : (returnFromException s).dev = s.dev := rfl
@[simp] theorem returnFromException_params : (returnFromException s).params = s.params := rfl
end returning

/-! ### The tick -/

section tick
variable (s : State)
@[simp] theorem countTick_regs : (countTick s).regs = s.regs := rfl
@[simp] theorem countTick_hi : (countTick s).hi = s.hi := rfl
@[simp] theorem countTick_lo : (countTick s).lo = s.lo := rfl
@[simp] theorem countTick_pc : (countTick s).pc = s.pc := rfl
@[simp] theorem countTick_pend : (countTick s).pend = s.pend := rfl
@[simp] theorem countTick_cp0 : (countTick s).cp0 = cop0Ticked s.cp0 s.params.countDivisor := rfl
@[simp] theorem countTick_ram : (countTick s).ram = s.ram := rfl
@[simp] theorem countTick_dev : (countTick s).dev = s.dev := rfl
@[simp] theorem countTick_rom : (countTick s).rom = s.rom := rfl
@[simp] theorem countTick_sched : (countTick s).sched = s.sched := rfl
@[simp] theorem countTick_params : (countTick s).params = s.params := rfl
@[simp] theorem countTick_draws : (countTick s).draws = s.draws := rfl
@[simp] theorem countTick_refused : (countTick s).refused = s.refused := rfl
@[simp] theorem readReg_countTick (r : RegNum) : readReg (countTick s) r = readReg s r := rfl
end tick

/-- The tick changes Count, its phase and the IP7 latch, and no other COP0 register (60_exceptions.md R436). -/
theorem cop0Ticked_frame (c : Cop0) (d : Nat) :
    cop0Ticked c d =
      { c with countPhase := (cop0Ticked c d).countPhase, count := (cop0Ticked c d).count, ip7 := (cop0Ticked c d).ip7 } := by
  unfold cop0Ticked
  split <;> rfl

/-- The phase stays below the divisor (10_state.md R45). -/
theorem cop0Ticked_phase {c : Cop0} {d : Nat} (h : c.countPhase < d) : (cop0Ticked c d).countPhase < d := by
  unfold cop0Ticked
  split
  · show 0 < d
    omega
  · show c.countPhase + 1 < d
    omega

/-- A next state of a ticked outcome is a ticked next state. -/
theorem thenTick_next {r : Result} {t : State} (h : thenTick r = .next t) : ∃ u, r = .next u ∧ t = countTick u := by
  cases r with
  | next u => exact ⟨u, rfl, by simpa [thenTick] using h.symm⟩
  | fault f => cases f
  | refused r => simp [thenTick] at h

/-- A refusal passes the tick. -/
theorem thenTick_refused {r : Result} {why : Refusal} (h : thenTick r = .refused why) : r = .refused why := by
  cases r <;> simp_all [thenTick]

/-! ### Interrupts -/

/-- An interrupt is taken exactly when some source is eligible (60_exceptions.md R421). -/
theorem interruptTaken_iff (s : State) : interruptTaken s = true ↔ ∃ n < 8, eligible s n = true := by
  simp only [interruptTaken, selectedSource, List.find?_isSome, List.mem_cons, List.not_mem_nil, or_false]
  constructor
  · rintro ⟨n, hn, he⟩
    exact ⟨n, by omega, he⟩
  · rintro ⟨n, hn, he⟩
    exact ⟨n, by omega, he⟩

end Sys2Proof.Machine
end

