-- ==== Sys2Proof/Laws/Bus.lean ====
section
/-! SUPPORT. What the accesses of Machine/Bus.lean and the register writes of Machine/Devices.lean can do. -/

namespace Sys2Proof.Machine

/-- A state that differs from another in RAM, the devices and the count of draws alone. -/
theorem shape_of {s t : State} (h : t = ((s.setRam t.ram).setDev t.dev).setDraws t.draws) :
    ∃ ram dev draws, t = ((s.setRam ram).setDev dev).setDraws draws := ⟨_, _, _, h⟩

/-- A write of an MMIO register changes RAM, the devices and the count of draws alone (20_memory.md R128). -/
theorem mmioWrite_shape (s : State) (r : MmioReg) (v : Word) :
    ∃ ram dev draws, mmioWrite s r v = ((s.setRam ram).setDev dev).setDraws draws := by
  unfold mmioWrite
  cases r
  case miIntrMask =>
    show ∃ ram dev draws, miMaskWrite s v = _
    unfold miMaskWrite
    split <;> exact shape_of rfl
  case dpStatus | viStatus | aiStatus | siStatus => dsimp only; split <;> exact shape_of rfl
  all_goals exact shape_of rfl

/-- A bus write changes RAM, the devices and the count of draws alone (20_memory.md R120). -/
theorem busWrite_shape (s : State) (pa : Word) (w : Width) (v : Word) :
    ∃ ram dev draws, busWrite s pa w v = ((s.setRam ram).setDev dev).setDraws draws := by
  unfold busWrite
  split
  · exact shape_of rfl
  · cases w <;> simp only [mmioStore]
    case word =>
      split
      · exact mmioWrite_shape _ _ _
      · exact shape_of rfl
    all_goals exact shape_of rfl
  · exact shape_of rfl

/-- A bus write draws at most one free value, and none but for a word (60_exceptions.md R443). -/
theorem busWrite_draws (s : State) (pa : Word) (w : Width) (v : Word) :
    s.draws ≤ (busWrite s pa w v).draws ∧ (w ≠ .word → (busWrite s pa w v).draws = s.draws) := by
  unfold busWrite
  split
  · exact ⟨Nat.le_refl _, fun _ => rfl⟩
  · cases w <;> simp only [mmioStore]
    case word =>
      refine ⟨?_, fun h => absurd rfl h⟩
      split
      · next r _ =>
        unfold mmioWrite
        cases r
        case miIntrMask =>
          show s.draws ≤ (miMaskWrite s v).draws
          unfold miMaskWrite
          split
          · exact Nat.le_succ _
          · exact Nat.le_refl _
        case dpStatus | viStatus | aiStatus | siStatus => dsimp only; split <;> exact Nat.le_refl _
        all_goals exact Nat.le_refl _
      · exact Nat.le_refl _
    all_goals simp
  · exact ⟨Nat.le_refl _, fun _ => rfl⟩

section busWrite
variable (s : State) (pa : Word) (w : Width) (v : Word)
@[simp] theorem busWrite_regs : (busWrite s pa w v).regs = s.regs := by
  obtain ⟨_, _, _, h⟩ := busWrite_shape s pa w v
  rw [h]
  rfl
@[simp] theorem busWrite_hi : (busWrite s pa w v).hi = s.hi := by
  obtain ⟨_, _, _, h⟩ := busWrite_shape s pa w v
  rw [h]
  rfl
@[simp] theorem busWrite_lo : (busWrite s pa w v).lo = s.lo := by
  obtain ⟨_, _, _, h⟩ := busWrite_shape s pa w v
  rw [h]
  rfl
@[simp] theorem busWrite_pc : (busWrite s pa w v).pc = s.pc := by
  obtain ⟨_, _, _, h⟩ := busWrite_shape s pa w v
  rw [h]
  rfl
@[simp] theorem busWrite_pend : (busWrite s pa w v).pend = s.pend := by
  obtain ⟨_, _, _, h⟩ := busWrite_shape s pa w v
  rw [h]
  rfl
@[simp] theorem busWrite_cp0 : (busWrite s pa w v).cp0 = s.cp0 := by
  obtain ⟨_, _, _, h⟩ := busWrite_shape s pa w v
  rw [h]
  rfl
@[simp] theorem busWrite_rom : (busWrite s pa w v).rom = s.rom := by
  obtain ⟨_, _, _, h⟩ := busWrite_shape s pa w v
  rw [h]
  rfl
@[simp] theorem busWrite_sched : (busWrite s pa w v).sched = s.sched := by
  obtain ⟨_, _, _, h⟩ := busWrite_shape s pa w v
  rw [h]
  rfl
@[simp] theorem busWrite_params : (busWrite s pa w v).params = s.params := by
  obtain ⟨_, _, _, h⟩ := busWrite_shape s pa w v
  rw [h]
  rfl
@[simp] theorem busWrite_refused : (busWrite s pa w v).refused = s.refused := by
  obtain ⟨_, _, _, h⟩ := busWrite_shape s pa w v
  rw [h]
  rfl
end busWrite

/-- What an instruction that waits on an access can end in. -/
theorem andThen_next {α : Type} {x : Access α} {s t : State} {k : α → Result} (h : x.andThen s k = .next t) :
    (∃ a, x = .ok a ∧ k a = .next t) ∨ ∃ e, x = .raise e ∧ t = enterException e s := by
  cases x with
  | ok a => exact .inl ⟨a, rfl, h⟩
  | raise e => exact .inr ⟨e, rfl, by simpa [Access.andThen, raise] using h.symm⟩
  | refuse r => simp [Access.andThen] at h

/-- When such an instruction is refused. -/
theorem andThen_refused {α : Type} {x : Access α} {s : State} {k : α → Result} {r : Refusal}
    (h : x.andThen s k = .refused r) : (∃ a, x = .ok a ∧ k a = .refused r) ∨ x = .refuse r := by
  cases x with
  | ok a => exact .inl ⟨a, rfl, h⟩
  | raise e => simp [Access.andThen, raise] at h
  | refuse q => exact .inr (by simpa [Access.andThen] using h)

/-- The exceptions a translation raises, by kind (20_memory.md R114). -/
theorem translate_raise {p : Params} {va : Word} {kind : AccessKind} {e : Exc} (h : translateAddress p va kind = .raise e) :
    ∃ refill, e = (if kind = .store then .tlbStore va refill else .tlbLoad va refill) ∨
      (kind = .store ∧ e = .tlbModified va) := by
  unfold translateAddress at h
  split at h
  · split at h
    · unfold tlbTranslate at h
      split at h
      · cases h
      · exact ⟨true, .inl (Access.raise.inj h).symm⟩
      · exact ⟨false, .inl (Access.raise.inj h).symm⟩
      · split at h
        · next hk => exact ⟨false, .inr ⟨hk, (Access.raise.inj h).symm⟩⟩
        · cases h
    · cases h
  · split at h
    · cases h
    · split at h <;> cases h

/-- The one refusal of a translation (20_memory.md R114). -/
theorem translate_refuse {p : Params} {va : Word} {kind : AccessKind} {r : Refusal}
    (h : translateAddress p va kind = .refuse r) :
    r = .tlbLookupModifiedOnRead ∧ p.tlbMode = true ∧ va < 0x80000000#32 ∧ kind ≠ .store ∧
      tlbLookup p va kind = .modified := by
  unfold translateAddress at h
  split at h
  · next hv =>
    split at h
    · next hm =>
      unfold tlbTranslate at h
      split at h
      · cases h
      · cases h
      · cases h
      · next hl =>
        split at h
        · cases h
        · next hk => exact ⟨(Access.refuse.inj h).symm, hm, hv, hk, hl⟩
    · cases h
  · split at h
    · cases h
    · split at h <;> cases h

/-- A load instruction's next states: the loaded register, or an exception. -/
theorem loadInto_next {w : Width} {f : Word → Word} {rt : RegNum} {imm : Imm16} {rs : RegNum} {s t : State}
    (h : loadInto w f rt imm rs s = .next t) :
    (∃ v, load s (effectiveAddress s rs imm) w = .ok v ∧ t = retire (writeReg s rt (f v))) ∨
      ∃ e, load s (effectiveAddress s rs imm) w = .raise e ∧ t = enterException e s :=
  (andThen_next h).imp_left fun ⟨v, hv, ht⟩ => ⟨v, hv, (Host.Outcome.next.inj ht).symm⟩

/-- A store instruction's next states: the bus write, or an exception. -/
theorem storeFrom_next {w : Width} {rt : RegNum} {imm : Imm16} {rs : RegNum} {s t : State}
    (h : storeFrom w rt imm rs s = .next t) :
    (∃ pa, storeAddress s (effectiveAddress s rs imm) w = .ok pa ∧ t = retire (busWrite s pa w (readReg s rt))) ∨
      ∃ e, storeAddress s (effectiveAddress s rs imm) w = .raise e ∧ t = enterException e s :=
  (andThen_next h).imp_left fun ⟨pa, hp, ht⟩ => ⟨pa, hp, (Host.Outcome.next.inj ht).symm⟩

/-- The checks a store passed. -/
theorem storeAddress_ok {s : State} {va pa : Word} {w : Width} (h : storeAddress s va w = .ok pa) :
    aligned va w = true ∧ translateAddress s.params va .store = .ok pa := by
  unfold storeAddress at h
  split at h
  · next ha => exact ⟨ha, h⟩
  · cases h

end Sys2Proof.Machine
end

