-- ==== Sys2Proof/Laws/Memory.lean ====
section
/-! SUPPORT. The laws of byte memory: a read after a write, the canonical form kept, and the wide accesses. -/

namespace Sys2Proof.Machine

@[simp] theorem Memory.read_nil (k : Nat) : Memory.read [] k = unlistedByte := rfl

theorem Memory.read_cons (a : Nat) (b : Byte) (m : Memory) (k : Nat) :
    Memory.read ((a, b) :: m) k = if a = k then b else Memory.read m k := rfl

/-- An address below every entry is unlisted. -/
theorem Memory.read_of_lt {m : Memory} {k : Nat} (h : ∀ c ∈ m, k < c.1) : m.read k = unlistedByte := by
  induction m with
  | nil => rfl
  | cons c m ih =>
    obtain ⟨a, b⟩ := c
    have ha : k < a := h (a, b) (by simp)
    rw [Memory.read_cons, if_neg (by omega)]
    exact ih fun c hc => h c (List.mem_cons_of_mem _ hc)

theorem Memory.wf_nil : Memory.wf [] := ⟨.nil, fun _ h => nomatch h⟩

theorem Memory.wf.tail {c : Host.Cell} {m : Memory} (h : Memory.wf (c :: m)) : Memory.wf m :=
  ⟨(List.pairwise_cons.1 h.1).2, fun d hd => h.2 d (List.mem_cons_of_mem _ hd)⟩

theorem Memory.wf.head_lt {a : Nat} {b : Byte} {m : Memory} (h : Memory.wf ((a, b) :: m)) : ∀ c ∈ m, a < c.1 :=
  (List.pairwise_cons.1 h.1).1

/-- Every entry of a written memory is the new one or an old one. -/
theorem Memory.mem_write {m : Memory} {k : Nat} {v : Byte} {c : Host.Cell} (h : c ∈ m.write k v) :
    c = (k, v) ∧ v ≠ unlistedByte ∨ c ∈ m := by
  induction m with
  | nil =>
    unfold Memory.write Memory.consByte at h
    split at h <;> simp_all
  | cons d m ih =>
    obtain ⟨a, b⟩ := d
    unfold Memory.write at h
    split at h
    · unfold Memory.consByte at h
      split at h <;> simp_all
    · split at h
      · unfold Memory.consByte at h
        split at h
        · exact .inr (List.mem_cons_of_mem _ h)
        · rcases List.mem_cons.1 h with rfl | h
          · exact .inl ⟨rfl, ‹_›⟩
          · exact .inr (List.mem_cons_of_mem _ h)
      · rcases List.mem_cons.1 h with rfl | h
        · exact .inr (by simp)
        · rcases ih h with h | h
          · exact .inl h
          · exact .inr (List.mem_cons_of_mem _ h)

theorem Memory.consByte_wf {m : Memory} {k : Nat} {v : Byte} (h : m.wf) (hk : ∀ c ∈ m, k < c.1) :
    (Memory.consByte k v m).wf := by
  unfold Memory.consByte
  split
  · exact h
  · next hv =>
    refine ⟨List.pairwise_cons.2 ⟨hk, h.1⟩, fun c hc => ?_⟩
    rcases List.mem_cons.1 hc with rfl | hc
    · exact hv
    · exact h.2 c hc

/-- A write keeps the canonical form. -/
theorem Memory.write_wf {m : Memory} (h : m.wf) (k : Nat) (v : Byte) : (m.write k v).wf := by
  induction m with
  | nil => exact Memory.consByte_wf Memory.wf_nil (by simp)
  | cons d m ih =>
    obtain ⟨a, b⟩ := d
    unfold Memory.write
    split
    · next hka =>
      refine Memory.consByte_wf h fun c hc => ?_
      rcases List.mem_cons.1 hc with rfl | hc
      · exact hka
      · exact Nat.lt_trans hka (h.head_lt c hc)
    · split
      · next hka => exact Memory.consByte_wf h.tail fun c hc => hka ▸ h.head_lt c hc
      · next hlt hne =>
        have ht := ih h.tail
        refine ⟨List.pairwise_cons.2 ⟨fun c hc => ?_, ht.1⟩, fun c hc => ?_⟩
        · rcases Memory.mem_write hc with ⟨rfl, _⟩ | hc
          · show a < k
            omega
          · exact h.head_lt c hc
        · rcases List.mem_cons.1 hc with rfl | hc
          · exact h.2 _ (by simp)
          · exact ht.2 c hc

/-- A write below a limit keeps the memory below it. -/
theorem Memory.write_below {m : Memory} {limit k : Nat} (h : m.below limit) (hk : k < limit) (v : Byte) :
    (m.write k v).below limit := fun c hc => by
  rcases Memory.mem_write hc with ⟨rfl, _⟩ | hc
  · exact hk
  · exact h c hc

theorem Memory.read_consByte {m : Memory} {k j : Nat} {v : Byte} (hk : ∀ c ∈ m, k < c.1) :
    (Memory.consByte k v m).read j = if j = k then v else m.read j := by
  unfold Memory.consByte
  split
  · next hv =>
    split
    · next hj => rw [hj, Memory.read_of_lt hk, hv]
    · rfl
  · rw [Memory.read_cons]
    by_cases hj : j = k
    · simp [hj]
    · rw [if_neg (fun h => hj h.symm), if_neg hj]

/-- A read after a write, in a memory in canonical form. -/
theorem Memory.read_write {m : Memory} (h : m.wf) (k : Nat) (v : Byte) (j : Nat) :
    (m.write k v).read j = if j = k then v else m.read j := by
  induction m with
  | nil => exact Memory.read_consByte (by simp)
  | cons d m ih =>
    obtain ⟨a, b⟩ := d
    unfold Memory.write
    split
    · next hka =>
      refine Memory.read_consByte fun c hc => ?_
      rcases List.mem_cons.1 hc with rfl | hc
      · exact hka
      · exact Nat.lt_trans hka (h.head_lt c hc)
    · split
      · next hka =>
        subst hka
        rw [Memory.read_consByte (h.head_lt), Memory.read_cons]
        by_cases hj : j = k
        · simp [hj]
        · rw [if_neg hj, if_neg hj, if_neg (fun e => hj e.symm)]
      · next hlt hne =>
        rw [Memory.read_cons, Memory.read_cons, ih h.tail]
        by_cases hj : a = j
        · rw [if_pos hj, if_pos hj, if_neg (by omega)]
        · rw [if_neg hj, if_neg hj]

/-! ### Copies -/

theorem Memory.copy_wf {m : Memory} (h : m.wf) (base : Nat) (f : Nat → Byte) (n : Nat) : (m.copy base f n).wf := by
  induction n with
  | zero => exact h
  | succ n ih => exact Memory.write_wf ih _ _

theorem Memory.copy_below {m : Memory} {limit base n : Nat} (h : m.below limit) (f : Nat → Byte)
    (hn : n = 0 ∨ base + n ≤ limit) : (m.copy base f n).below limit := by
  induction n with
  | zero => exact h
  | succ n ih => exact Memory.write_below (ih (by omega)) (by omega) _

/-- What a copy leaves at an address. -/
theorem Memory.read_copy {m : Memory} (h : m.wf) (base : Nat) (f : Nat → Byte) (n j : Nat) :
    (m.copy base f n).read j = if base ≤ j ∧ j < base + n then f (j - base) else m.read j := by
  induction n with
  | zero => rw [if_neg (by omega)]; rfl
  | succ n ih =>
    rw [Memory.copy, Memory.read_write (Memory.copy_wf h base f n), ih]
    by_cases hj : j = base + n
    · rw [if_pos hj, if_pos (by omega), hj, Nat.add_sub_cancel_left]
    · by_cases hr : base ≤ j ∧ j < base + n
      · rw [if_neg hj, if_pos hr, if_pos (by omega)]
      · rw [if_neg hj, if_neg hr, if_neg (by omega)]

/-! ### Wide accesses -/

theorem Memory.writeWide_wf {m : Memory} (h : m.wf) (a : Nat) (v : Word) (w : Width) : (m.writeWide a v w).wf := by
  cases w
  · exact Memory.write_wf h _ _
  · exact Memory.write_wf (Memory.write_wf h _ _) _ _
  · exact Memory.write_wf (Memory.write_wf (Memory.write_wf (Memory.write_wf h _ _) _ _) _ _) _ _

theorem Memory.writeWide_below {m : Memory} {limit a : Nat} {w : Width} (h : m.below limit) (ha : a + w.bytes ≤ limit)
    (v : Word) : (m.writeWide a v w).below limit := by
  cases w <;> simp only [Width.bytes] at ha
  · exact Memory.write_below h (by omega) _
  · exact Memory.write_below (Memory.write_below h (by omega) _) (by omega) _
  · exact Memory.write_below (Memory.write_below (Memory.write_below (Memory.write_below h (by omega) _) (by omega) _)
      (by omega) _) (by omega) _

/-- The byte at distance `k` of a stored value: big-endian, the last byte the lowest (20_memory.md R100). -/
def storedByte (v : Word) (w : Width) (k : Nat) : Byte := v.extractLsb' (8 * (w.bytes - 1 - k)) 8

/-- What a wide write leaves at an address. -/
theorem Memory.read_writeWide {m : Memory} (h : m.wf) (a : Nat) (v : Word) (w : Width) (j : Nat) :
    (m.writeWide a v w).read j = if a ≤ j ∧ j < a + w.bytes then storedByte v w (j - a) else m.read j := by
  have hb : w.bytes = match w with | .byte => 1 | .half => 2 | .word => 4 := by cases w <;> rfl
  by_cases hr : a ≤ j ∧ j < a + w.bytes
  · rw [if_pos hr]
    cases w <;> simp only [Memory.writeWide] at hr hb ⊢ <;> rw [hb] at hr
    · obtain rfl : j = a := by omega
      simp [Memory.read_write h, storedByte, Width.bytes]
    · rw [Memory.read_write (Memory.write_wf h _ _), Memory.read_write h]
      obtain rfl | rfl : j = a ∨ j = a + 1 := by omega
      all_goals simp [storedByte, Width.bytes]
    · rw [Memory.read_write (Memory.write_wf (Memory.write_wf (Memory.write_wf h _ _) _ _) _ _),
        Memory.read_write (Memory.write_wf (Memory.write_wf h _ _) _ _), Memory.read_write (Memory.write_wf h _ _),
        Memory.read_write h]
      obtain rfl | rfl | rfl | rfl : j = a ∨ j = a + 1 ∨ j = a + 2 ∨ j = a + 3 := by omega
      all_goals simp [storedByte, Width.bytes]
  · rw [if_neg hr]
    cases w <;> simp only [Memory.writeWide] at hr hb ⊢ <;> rw [hb] at hr
    · rw [Memory.read_write h, if_neg (by omega)]
    · rw [Memory.read_write (Memory.write_wf h _ _), Memory.read_write h, if_neg (by omega), if_neg (by omega)]
    · rw [Memory.read_write (Memory.write_wf (Memory.write_wf (Memory.write_wf h _ _) _ _) _ _),
        Memory.read_write (Memory.write_wf (Memory.write_wf h _ _) _ _), Memory.read_write (Memory.write_wf h _ _),
        Memory.read_write h, if_neg (by omega), if_neg (by omega), if_neg (by omega), if_neg (by omega)]

/-- The four bytes of a word put together again. -/
theorem bytes_append (v : Word) :
    v.extractLsb' 24 8 ++ v.extractLsb' 16 8 ++ v.extractLsb' 8 8 ++ v.extractLsb' 0 8 = v := by
  ext i hi
  simp only [BitVec.getElem_append, BitVec.getElem_extractLsb']
  split_ifs <;> simp only [← BitVec.getLsbD_eq_getElem] <;> congr 1 <;> omega

/-- A word read back after a word write is the word written. -/
theorem Memory.readWide_writeWide_word {m : Memory} (h : m.wf) (a : Nat) (v : Word) :
    (m.writeWide a v .word).readWide a .word = v := by
  have hr : ∀ k, k < 4 → (m.writeWide a v .word).read (a + k) = storedByte v .word k := fun k hk => by
    rw [Memory.read_writeWide h, if_pos ⟨by omega, by simp only [Width.bytes]; omega⟩, Nat.add_sub_cancel_left]
  have h0 := hr 0 (by omega)
  rw [Nat.add_zero] at h0
  rw [Memory.readWide, h0, hr 1 (by omega), hr 2 (by omega), hr 3 (by omega)]
  exact bytes_append v

end Sys2Proof.Machine
end

