-- ==== Sys2Proof/Laws/Invariant.lean ====
section
/-! SUPPORT. The part of the invariant that lies in RAM and the devices, kept by every bus write. -/

namespace Sys2Proof.Machine

/-- The parts of `Inv` that a bus write can touch. -/
structure BusInv (s : State) : Prop where
  params : s.params.wellFormed = true
  ram : s.ram.wf ∧ s.ram.below s.params.ramSize
  pif : s.dev.si.pif.wf ∧ s.dev.si.pif.below 64
  pending : s.dev.mi.pending.extractLsb' 6 26 = 0
  mask : s.dev.mi.mask.extractLsb' 16 16 = 0

/-- Bits 31:6 of an or. -/
theorem highBits_or (a b : Word) (ha : a.extractLsb' 6 26 = 0) (hb : b.extractLsb' 6 26 = 0) : (a ||| b).extractLsb' 6 26 = 0 := by
  rw [BitVec.extractLsb'_or, ha, hb]; rfl

/-- Bits 31:6 of an and. -/
theorem highBits_and (a b : Word) (ha : a.extractLsb' 6 26 = 0) : (a &&& b).extractLsb' 6 26 = 0 := by
  rw [BitVec.extractLsb'_and, ha]; simp

/-- Bits 31:16 of a halfword. -/
theorem highBits_setWidth (b : BitVec 16) : (b.setWidth 32 : Word).extractLsb' 16 16 = 0 := by
  ext i hi; simp [BitVec.getLsbD_setWidth]

/-- A copy cut to what fits stays below RAM's end. -/
theorem copied_fits (n dst limit : Nat) : min n (limit - dst) = 0 ∨ dst + min n (limit - dst) ≤ limit := by omega

/-- PIF RAM after a write kick (60_exceptions.md R465). -/
theorem siKickWrite64B_pif (s : State) :
    (siKickWrite64B s).dev.si.pif = s.dev.si.pif.copy 0 (siSourceByte s) pifBytes := by
  simp only [siKickWrite64B, Devices.miRaise, setDev_dev]

/-- A copy of at most 64 bytes into PIF RAM keeps its form. -/
theorem pif_copied {m : Memory} (h : m.wf ∧ m.below 64) (f : Nat → Byte) {n : Nat} (hn : n ≤ 64) :
    (m.copy 0 f n).wf ∧ (m.copy 0 f n).below 64 :=
  ⟨Memory.copy_wf h.1 0 f n, Memory.copy_below h.2 f (.inr (by omega))⟩

/-- A register write keeps it (20_memory.md R128). -/
theorem mmioWrite_busInv {s : State} (h : BusInv s) (r : MmioReg) (v : Word) : BusInv (mmioWrite s r v) := by
  obtain ⟨hp, ⟨hr1, hr2⟩, ⟨hq1, hq2⟩, hpe, hm⟩ := h
  have or1 (b : Word) (hb : b.extractLsb' 6 26 = 0) := highBits_or _ b hpe hb
  have and1 (b : Word) := highBits_and _ b hpe
  cases r <;> simp only [mmioWrite]
  case miVersion | miIntr => exact ⟨hp, ⟨hr1, hr2⟩, ⟨hq1, hq2⟩, hpe, hm⟩
  case miMode => exact ⟨hp, ⟨hr1, hr2⟩, ⟨hq1, hq2⟩, and1 _, hm⟩
  case miIntrMask =>
    unfold miMaskWrite
    have : (maskWritten s.dev.mi.mask v (Config.miMaskConflict s.draws)).extractLsb' 16 16 = 0 := by
      unfold maskWritten; dsimp only; split <;> exact highBits_setWidth _
    split <;> exact ⟨hp, ⟨hr1, hr2⟩, ⟨hq1, hq2⟩, hpe, this⟩
  case spStatus =>
    have acked : BusInv (s.setDev (if v.getLsbD s.params.layout.sp.ackBit then s.dev.spAck else s.dev)) := by
      split
      · exact ⟨hp, ⟨hr1, hr2⟩, ⟨hq1, hq2⟩, and1 _, hm⟩
      · exact ⟨hp, ⟨hr1, hr2⟩, ⟨hq1, hq2⟩, hpe, hm⟩
    unfold Devices.spStatusWrite
    dsimp only
    split
    · exact ⟨hp, ⟨hr1, hr2⟩, acked.pif, highBits_or _ _ acked.pending (by decide), acked.mask⟩
    · exact acked
  case spCmdStart => exact ⟨hp, ⟨hr1, hr2⟩, ⟨hq1, hq2⟩, or1 _ (by decide), hm⟩
  case dpStatus | viStatus | aiStatus | siStatus =>
    split
    · exact ⟨hp, ⟨hr1, hr2⟩, ⟨hq1, hq2⟩, and1 _, hm⟩
    · exact ⟨hp, ⟨hr1, hr2⟩, ⟨hq1, hq2⟩, hpe, hm⟩
  case piStatus =>
    unfold Devices.piStatusWrite
    split
    · exact ⟨hp, ⟨hr1, hr2⟩, ⟨hq1, hq2⟩, and1 _, hm⟩
    · split <;> exact ⟨hp, ⟨hr1, hr2⟩, ⟨hq1, hq2⟩, hpe, hm⟩
  case siPifRd =>
    refine ⟨hp, ⟨Memory.copy_wf hr1 _ _ _, Memory.copy_below hr2 _ ?_⟩, ⟨hq1, hq2⟩, or1 _ (by decide), hm⟩
    exact copied_fits _ _ _
  case siPifWr =>
    refine ⟨hp, ⟨hr1, hr2⟩, ?_, or1 _ (by decide), hm⟩
    rw [siKickWrite64B_pif]
    exact pif_copied ⟨hq1, hq2⟩ _ (Nat.le_refl _)
  all_goals exact ⟨hp, ⟨hr1, hr2⟩, ⟨hq1, hq2⟩, hpe, hm⟩

/-- A bus write to an aligned address keeps it. -/
theorem busWrite_busInv {s : State} (h : BusInv s) (pa : Word) (w : Width) (v : Word) (ha : pa.toNat % w.bytes = 0) : BusInv (busWrite s pa w v) := by
  unfold busWrite
  split
  · next hr =>
    have hlt : pa.toNat < s.params.ramSize := by
      unfold route at hr
      split at hr
      · assumption
      · split at hr <;> cases hr
    have hs : s.params.ramSize % 4 = 0 := by
      have := h.params; simp only [Params.wellFormed, Bool.and_eq_true, beq_iff_eq] at this; exact this.1.1.1.1
    refine ⟨h.params, ⟨Memory.writeWide_wf h.ram.1 _ _ _, Memory.writeWide_below h.ram.2 ?_ _⟩, h.pif, h.pending, h.mask⟩
    show _ ≤ s.params.ramSize
    cases w <;> simp only [Width.bytes] at * <;> omega
  · cases w <;> simp only [mmioStore]
    case word => split; exact mmioWrite_busInv h _ _; exact h
    all_goals exact h
  · exact h

/-- An aligned address translates to an aligned address, when the parameters are well formed (20_memory.md R120). -/
theorem translateAddress_aligned {p : Params} (hp : p.wellFormed = true) {va pa : Word} {k : AccessKind} {w : Width} (h : translateAddress p va k = .ok pa) (ha : aligned va w = true) : pa.toNat % w.bytes = 0 := by
  have ha : va.toNat % w.bytes = 0 := by simpa [aligned] using ha
  have key : pa.toNat % 4 = va.toNat % 4 := by
    unfold translateAddress at h
    split at h
    · split at h
      · unfold tlbTranslate at h
        split at h
        · next x hx =>
          cases h
          unfold tlbLookup at hx
          split at hx
          · next r hr =>
            have hm := List.mem_of_find?_eq_some hr
            have hsat := List.find?_some hr
            have := List.all_eq_true.1 (by simp only [Params.wellFormed, Bool.and_eq_true] at hp; exact hp.1.2) r hm
            unfold tlbRangeAnswer at hx
            unfold TlbRange.wellFormed at this
            cases hxa : r.answer <;> rw [hxa] at this hx <;> simp at hx this
            simp [tlbRangeMatches] at hsat
            subst hx
            have hle : r.first.toNat ≤ va.toNat := hsat.1.2
            rw [BitVec.toNat_add, BitVec.toNat_sub_of_le hsat.1.2]
            omega
          · cases hx
        · cases h
        · cases h
        · split at h <;> cases h
      · cases h; rfl
    · next h1 =>
      have h1' : 0x80000000 ≤ va.toNat := Nat.not_lt.1 h1
      split at h
      · cases h; rw [BitVec.toNat_sub]; simp; omega
      · next h2 =>
        have h2' : 0xA0000000 ≤ va.toNat := Nat.not_lt.1 h2
        split at h
        · cases h; rw [BitVec.toNat_sub]; simp; omega
        · cases h; rfl
  cases w <;> simp only [Width.bytes] at * <;> omega

/-- The invariant has it. -/
theorem Inv.bus {s : State} (h : Inv s) : BusInv s := ⟨h.params, h.ram, h.pif, h.pending, h.mask⟩

end Sys2Proof.Machine
end

