-- ==== Sys2Proof/Laws/Devices.lean ====
section
/-! SUPPORT. MMIO registers at an address, the DMA operations, and the aggregate interrupt line, each said once. -/

namespace Sys2Proof.Machine

/-- RAM ends at or below the MMIO windows (00_scope.md R10). -/
theorem ramSize_le_of_wellFormed {p : Params} (h : p.wellFormed = true) : p.ramSize ≤ 0x04000000 := by
  simp [Params.wellFormed] at h
  omega

/-- A well-formed layout's offsets lie inside the window (20_memory.md R123, R125). -/
theorem offset_lt {l : MmioLayout} (h : l.wellFormed = true) (r : MmioReg) : r.offset l < 0x100000 := by
  simp only [MmioLayout.wellFormed, offsetsWellFormed, List.all_cons, Bool.and_eq_true, decide_eq_true_eq] at h
  cases r <;> simp only [MmioReg.offset] <;> omega

/-- Searching for a key finds its own entry when no two entries share a key. -/
theorem find?_key {α : Type} (key : α → Nat) : ∀ {l : List α} {r : α}, (l.map key).Nodup → r ∈ l →
    (l.find? fun x => key x == key r) = some r
  | a :: l, r, hn, hr => by
    rw [List.map_cons, List.nodup_cons] at hn
    rcases List.mem_cons.1 hr with rfl | hr
    · simp
    · have : key a ≠ key r := fun h => hn.1 (h ▸ List.mem_map_of_mem hr)
      rw [List.find?_cons_of_neg (by simpa using this)]
      exact find?_key key hn.2 hr

/-- In a well-formed layout the offset of a register selects it (20_memory.md R124). -/
theorem mmioReg_offset {l : MmioLayout} (h : l.wellFormed = true) {b : Bank} {r : MmioReg} (hr : r ∈ bankRegs b) :
    mmioReg l b (r.offset l) = some r := by
  refine find?_key _ ?_ hr
  simp only [MmioLayout.wellFormed, offsetsWellFormed, Bool.and_eq_true, decide_eq_true_eq] at h
  obtain ⟨⟨⟨⟨⟨⟨⟨_, h1⟩, _, h2⟩, _, h3⟩, _, h4⟩, _, h5⟩, _, h6⟩, _, h7⟩ := h
  cases b <;> assumption

/-- A register that an offset of a bank selects is one of that bank, at that offset. -/
theorem mmioReg_some {l : MmioLayout} {b : Bank} {o : Nat} {r : MmioReg} (h : mmioReg l b o = some r) :
    r ∈ bankRegs b ∧ r.offset l = o :=
  ⟨List.mem_of_find?_eq_some h, by simpa using List.find?_some h⟩

/-- The route of an address in a window (20_memory.md R120, R123). -/
theorem route_window {p : Params} (h : p.ramSize ≤ 0x04000000) {pa : Word} {b : Bank} {base o : Nat}
    (hb : (b, base) ∈ mmioBases) (hp : pa.toNat = base + o) (ho : o < 0x100000) : route p pa = .mmio b o := by
  have e : (mmioBases.find? fun b => decide (b.2 ≤ pa.toNat) && decide (pa.toNat < b.2 + windowBytes)) = some (b, base) := by
    have hw : windowBytes = 0x100000 := rfl
    have found : ∀ c ∈ mmioBases, ∀ d ∈ mmioBases, c.2 ≠ d.2 → c.2 + 0x100000 ≤ d.2 ∨ d.2 + 0x100000 ≤ c.2 := by decide
    have same : ∀ c ∈ mmioBases, ∀ d ∈ mmioBases, c.2 = d.2 → c = d := by decide
    cases hf : mmioBases.find? fun b => decide (b.2 ≤ pa.toNat) && decide (pa.toNat < b.2 + windowBytes) with
    | none =>
      have := List.find?_eq_none.1 hf _ hb
      simp at this
      omega
    | some c =>
      have hc := List.mem_of_find?_eq_some hf
      have hs := List.find?_some hf
      simp at hs
      by_cases hd : c.2 = base
      · rw [same c hc _ hb hd]
      · have := found c hc _ hb hd
        simp only at this
        omega
  have : ∀ c ∈ mmioBases, 0x04000000 ≤ c.2 := by decide
  have := this _ hb
  simp only at this
  unfold route
  rw [if_neg (by omega), e]
  simp
  omega

/-- An address that goes to a device lies in its window (20_memory.md R120, R123). -/
theorem route_mmio {p : Params} {pa : Word} {b : Bank} {o : Nat} (h : route p pa = .mmio b o) :
    ∃ base, (b, base) ∈ mmioBases ∧ pa.toNat = base + o := by
  unfold route at h
  split at h
  · cases h
  · split at h
    · next c hc =>
      cases h
      have hs := List.find?_some hc
      simp only [Bool.and_eq_true, decide_eq_true_eq] at hs
      exact ⟨c.2, List.mem_of_find?_eq_some hc, by omega⟩
    · cases h

/-- Word accesses at the address of a register, in a well-formed construction (20_memory.md R124, R128). -/
theorem bus_register {s : State} (h : s.params.wellFormed = true) {b : Bank} {base : Nat} (hb : (b, base) ∈ mmioBases)
    {r : MmioReg} (hm : r ∈ bankRegs b) {pa : Word} (hp : pa = BitVec.ofNat 32 (base + r.offset s.params.layout)) :
    (∀ v, busWrite s pa .word v = mmioWrite s r v) ∧ busRead s pa .word = mmioRead s.params.layout s.dev r := by
  have hl : s.params.layout.wellFormed = true := by
    simp only [Params.wellFormed, Bool.and_eq_true] at h
    exact h.2
  have ho := offset_lt hl r
  have hbase : base ≤ 0x04800000 := by
    have : ∀ c ∈ mmioBases, c.2 ≤ 0x04800000 := by decide
    exact this _ hb
  have ha : pa.toNat = base + r.offset s.params.layout := by
    rw [hp, BitVec.toNat_ofNat]
    omega
  have hr := route_window (ramSize_le_of_wellFormed h) hb ha ho
  constructor
  · intro v
    simp [busWrite, hr, mmioStore, mmioReg_offset hl hm]
  · simp [busRead, hr, mmioLoad, mmioWordAt, mmioReg_offset hl hm]

/-- A read kick changes RAM and the pending bits alone (60_exceptions.md R464). -/
theorem siKickRead64B_shape (s : State) : ∃ m, siKickRead64B s =
    (s.setRam m).setDev { s.dev with mi := { s.dev.mi with pending := s.dev.mi.pending ||| 2 } } := ⟨_, rfl⟩

/-- A write kick changes PIF RAM and the pending bits alone (60_exceptions.md R465). -/
theorem siKickWrite64B_shape (s : State) : ∃ m, siKickWrite64B s =
    s.setDev { s.dev with
      si := { s.dev.si with pif := m }, mi := { s.dev.mi with pending := s.dev.mi.pending ||| 2 } } := ⟨_, rfl⟩

/-- RAM after a read kick. -/
theorem siKickRead64B_ram (s : State) : (siKickRead64B s).ram =
    s.ram.copy s.dev.si.dramAddr.toNat s.dev.si.pif.read (min pifBytes (s.params.ramSize - s.dev.si.dramAddr.toNat)) := by
  unfold siKickRead64B
  rw [setDev_ram, setRam_ram]

/-- An armed PI completion changes RAM and the devices alone (60_exceptions.md R461). -/
theorem piCompleteDma_shape {s : State} (h : s.dev.pi.dmaBusy = true) :
    ∃ m, piCompleteDma s = (s.setRam m).setDev s.dev.piCompleted := by
  unfold piCompleteDma
  rw [if_pos h]
  exact ⟨_, rfl⟩

/-- RAM after an armed PI completion. -/
theorem piCompleteDma_ram {s : State} (h : s.dev.pi.dmaBusy = true) : (piCompleteDma s).ram =
    s.ram.copy s.dev.pi.dramAddr.toNat (fun i => s.rom.getD (s.dev.pi.cartAddr.toNat + i) 0)
      (min (s.dev.pi.len.toNat + 1) (s.params.ramSize - s.dev.pi.dramAddr.toNat)) := by
  unfold piCompleteDma
  rw [if_pos h, setDev_ram, setRam_ram]

/-- A PI completion with nothing armed (60_exceptions.md R461). -/
theorem piCompleteDma_idle {s : State} (h : s.dev.pi.dmaBusy = false) : piCompleteDma s = s := by
  unfold piCompleteDma
  rw [if_neg (by simp [h])]

/-- Cause.IP2 is the aggregate line (10_state.md R56). -/
theorem causeRead_ip2 (s : State) : (causeRead s).getLsbD 10 = cpuIntAsserted s.dev.mi := by
  unfold causeRead
  simp only [BitVec.getLsbD_append]
  simp

/-- The aggregate line is up when some bit is both pending and in the mask (60_exceptions.md R441). -/
theorem cpuIntAsserted_iff (mi : MiRegs) :
    cpuIntAsserted mi = true ↔ ∃ j < 32, mi.pending.getLsbD j = true ∧ mi.mask.getLsbD j = true := by
  unfold cpuIntAsserted
  rw [bne_iff_ne]
  constructor
  · intro hne
    by_contra hno
    refine hne (BitVec.eq_of_getLsbD_eq fun i hi => ?_)
    rw [BitVec.getLsbD_and]
    by_contra hb
    have hb : (mi.pending.getLsbD i && mi.mask.getLsbD i) = true := by simpa using hb
    exact hno ⟨i, hi, by simpa [Bool.and_eq_true] using hb⟩
  · rintro ⟨i, hi, h1, h2⟩ h0
    have := congrArg (fun b => BitVec.getLsbD b i) h0
    rw [BitVec.getLsbD_and, h1, h2] at this
    simp at this

/-- Some bit is both set and cleared (60_exceptions.md R443). -/
theorem maskConflict_iff (v : Word) :
    maskConflict v = true ↔ ∃ i < 16, v.getLsbD i = true ∧ v.getLsbD (16 + i) = true := by
  unfold maskConflict
  rw [bne_iff_ne]
  constructor
  · intro hne
    by_contra hno
    refine hne (BitVec.eq_of_getLsbD_eq fun i hi => ?_)
    by_contra hb
    refine hno ⟨i, hi, ?_⟩
    simp [hi] at hb
    exact hb
  · rintro ⟨i, hi, h1, h2⟩ h0
    have := congrArg (fun b => BitVec.getLsbD b i) h0
    simp [hi, h1, h2] at this

/-- The mask after an MI_INTR_MASK write. -/
theorem miMaskWrite_mask (s : State) (v : Word) :
    (miMaskWrite s v).dev.mi.mask = maskWritten s.dev.mi.mask v (Config.miMaskConflict s.draws) := by
  unfold miMaskWrite
  dsimp only
  split <;> rfl

end Sys2Proof.Machine
end

