-- ==== Sys2Proof/Laws/Exec.lean ====
section
/-! SUPPORT. Everything an instruction, and a step, can do, said once: the claims about the whole machine are case
analyses of `exec_next` and `step_next`. -/

namespace Sys2Proof.Machine

/-- The instructions that write HI or LO (41_muldiv.md R240). -/
def writesHiLo : Instr → Bool
  | .mult .. | .multu .. | .div .. | .divu .. | .mthi .. | .mtlo .. => true
  | _ => false

/-- The ways an instruction ends in a next state. -/
inductive Effect (i : Instr) (s : State) : State → Prop where
  /-- One register write and the commit; a write to register 0 is none. -/
  | register (d : RegNum) (v : Word) : Effect i s (retire (writeReg s d v))
  /-- HI, LO, and the count of draws. -/
  | hiLo (hi lo : Word) (draws : Nat) (h : writesHiLo i = true)
    (hd : draws = s.draws ∨ draws = s.draws + 2 ∧ ∃ rs rt, i = .div rs rt ∨ i = .divu rs rt) :
    Effect i s (retire (((s.setHi hi).setLo lo).setDraws draws))
  /-- A branch or jump, with its link; register 0 where there is none. -/
  | branch (target : Word) (d : RegNum) (v : Word) (hi : i.hasDelaySlot = true) (hs : s.pend.valid = false) :
    Effect i s (((writeReg s d v).setPend { target := target, valid := true }).setPc (s.pc + 4))
  /-- A store that passed its checks. -/
  | store (w : Width) (va pa v : Word) (ha : aligned va w = true) (ht : translateAddress s.params va .store = .ok pa)
    (hw : w = .word → ∃ rt imm rs, i = .sw rt imm rs) : Effect i s (retire (busWrite s pa w v))
  /-- A COP0 write. -/
  | cop0 (rt n : RegNum) (h : i = .mtc0 rt n) : Effect i s (retire (cop0Write s n (readReg s rt)))
  /-- The return from an exception. -/
  | eret (h : i = .eret) (hs : s.pend.valid = false) : Effect i s (returnFromException s)
  /-- An exception entry, with no partial effect. -/
  | exception (e : Exc) (h : e ≠ .interrupt) : Effect i s (enterException e s)

section
variable {i : Instr} {s t : State}

theorem Effect.of_write {d : RegNum} {v : Word} (h : writeAndComplete d v s = .next t) : Effect i s t := by
  cases h
  exact .register d v

theorem Effect.of_nothing (h : complete s = .next t) : Effect i s t := by
  cases h
  exact .register 0 0

theorem Effect.of_raise {e : Exc} (he : e ≠ .interrupt) (h : raise e s = .next t) : Effect i s t := by
  cases h
  exact .exception e he

theorem Effect.of_overflow {c : Bool} {d : RegNum} {v : Word} (h : writeUnlessOverflow c d v s = .next t) :
    Effect i s t := by
  unfold writeUnlessOverflow at h
  split at h
  · exact .of_raise (by simp) h
  · exact .of_write h

theorem Effect.of_trap {c : Bool} (h : trapWhen c s = .next t) : Effect i s t := by
  unfold trapWhen at h
  split at h
  · exact .of_raise (by simp) h
  · exact .of_nothing h

theorem Effect.of_hiLo (hi : writesHiLo i = true) {u : State} (hu : u = ((s.setHi u.hi).setLo u.lo).setDraws u.draws)
    (hd : u.draws = s.draws ∨ u.draws = s.draws + 2 ∧ ∃ rs rt, i = .div rs rt ∨ i = .divu rs rt)
    (h : complete u = .next t) : Effect i s t := by
  cases h
  rw [hu]
  exact .hiLo _ _ _ hi hd

theorem Effect.of_branch {target : Word} {d : RegNum} {v : Word} (hi : i.hasDelaySlot = true)
    (h : branchTo target (writeReg s d v) = .next t) : Effect i s t := by
  rcases branchTo_cases target (writeReg s d v) with ⟨_, he⟩ | ⟨hs, he⟩
  · rw [he] at h
    cases h
  · rw [he] at h
    cases h
    rw [writeReg_pc]
    exact .branch _ _ _ hi (by simpa using hs)

/-- No access raises the interrupt exception. -/
theorem translate_not_interrupt {p : Params} {va : Word} {kind : AccessKind} {e : Exc}
    (h : translateAddress p va kind = .raise e) : e ≠ .interrupt := by
  obtain ⟨_, h | ⟨_, h⟩⟩ := translate_raise h
  · subst h
    split <;> simp
  · subst h
    simp

theorem map_raise {α β : Type} {f : α → β} {x : Access α} {e : Exc} (h : x.map f = .raise e) : x = .raise e := by
  cases x <;> simp_all [Access.map]

theorem load_not_interrupt {va : Word} {w : Width} {e : Exc} (h : load s va w = .raise e) : e ≠ .interrupt := by
  unfold load at h
  split at h
  · exact translate_not_interrupt (map_raise h)
  · cases h
    simp

theorem storeAddress_not_interrupt {va : Word} {w : Width} {e : Exc} (h : storeAddress s va w = .raise e) :
    e ≠ .interrupt := by
  unfold storeAddress at h
  split at h
  · exact translate_not_interrupt h
  · cases h
    simp

theorem fetch_not_interrupt {e : Exc} (h : fetch s = .raise e) : e ≠ .interrupt := by
  unfold fetch at h
  split at h
  · exact translate_not_interrupt (map_raise h)
  · cases h
    simp

theorem Effect.of_load {w : Width} {f : Word → Word} {rt : RegNum} {imm : Imm16} {rs : RegNum}
    (h : loadInto w f rt imm rs s = .next t) : Effect i s t := by
  rcases loadInto_next h with ⟨v, _, rfl⟩ | ⟨e, he, rfl⟩
  · exact .register rt (f v)
  · exact .exception e (load_not_interrupt he)

theorem Effect.of_store {w : Width} {rt : RegNum} {imm : Imm16} {rs : RegNum}
    (hw : w = .word → ∃ rt imm rs, i = .sw rt imm rs) (h : storeFrom w rt imm rs s = .next t) : Effect i s t := by
  rcases storeFrom_next h with ⟨pa, hp, rfl⟩ | ⟨e, he, rfl⟩
  · exact .store w _ pa _ (storeAddress_ok hp).1 (storeAddress_ok hp).2 hw
  · exact .exception e (storeAddress_not_interrupt he)

end

/-- THE INVERSION of `exec`: a next state is one of the effects. -/
theorem exec_next {i : Instr} {s t : State} (h : exec i s = .next t) : Effect i s t := by
  cases i
  case add | sub | addi => exact .of_overflow h
  case addu | subu | and | or | xor | nor | slt | sltu | addiu | slti | sltiu | andi | ori | xori | lui | sll | srl | sra |
      sllv | srlv | srav | mfhi | mflo | mfc0 => exact .of_write h
  case mult | multu | mthi | mtlo => exact .of_hiLo rfl rfl (.inl (by rfl)) h
  case div rs rt =>
    simp only [exec, execDiv] at h
    split at h
    · exact .of_hiLo rfl rfl (.inr ⟨by rfl, rs, rt, .inl rfl⟩) h
    · exact .of_hiLo rfl rfl (.inl (by rfl)) h
  case divu rs rt =>
    simp only [exec, execDivu] at h
    split at h
    · exact .of_hiLo rfl rfl (.inr ⟨by rfl, rs, rt, .inr rfl⟩) h
    · exact .of_hiLo rfl rfl (.inl (by rfl)) h
  case lb | lbu | lh | lhu | lw => exact .of_load h
  case sb | sh => exact .of_store (by simp) h
  case sw rt imm rs => exact .of_store (fun _ => ⟨rt, imm, rs, rfl⟩) h
  case beq | bne | blez | bgtz | bltz | bgez | j | jr => exact .of_branch (d := 0) (v := 0) rfl h
  case bltzal | bgezal | jal | jalr => exact .of_branch rfl h
  case tge | tgeu | tlt | tltu | teq | tne | tgei | tgeiu | tlti | tltiu | teqi | tnei => exact .of_trap h
  case mtc0 rt n =>
    cases h
    exact .cop0 rt n rfl
  case eret =>
    simp only [exec, execEret] at h
    split at h
    · cases h
    · next hs =>
      cases h
      exact .eret rfl (by simpa using hs)
  case sync | cache => exact .of_nothing h
  case tlbr | tlbwi | tlbwr | tlbp => cases h
  all_goals exact .of_raise (by simp) h

/-- When an instruction is refused. -/
theorem exec_refused {i : Instr} {s : State} {r : Refusal} (h : exec i s = .refused r) :
    (r = .delaySlotControl ∧ i.isControl = true ∧ s.pend.valid = true) ∨
    (r = .tlbOpBehaviour ∧ (i = .tlbr ∨ i = .tlbwi ∨ i = .tlbwr ∨ i = .tlbp)) ∨
    (r = .tlbLookupModifiedOnRead ∧ ∃ va, translateAddress s.params va .load = .refuse r) := by
  have branch {target : Word} {u : State} (hi : i.isControl = true) (hu : u.pend = s.pend)
      (h : branchTo target u = .refused r) : r = .delaySlotControl ∧ i.isControl = true ∧ s.pend.valid = true := by
    rcases branchTo_cases target u with ⟨hs, he⟩ | ⟨_, he⟩
    · rw [he] at h
      cases h
      exact ⟨rfl, hi, hu ▸ hs⟩
    · rw [he] at h
      cases h
  have loading {w : Width} {f : Word → Word} {rt : RegNum} {imm : Imm16} {rs : RegNum}
      (h : loadInto w f rt imm rs s = .refused r) :
      r = .tlbLookupModifiedOnRead ∧ ∃ va, translateAddress s.params va .load = .refuse r := by
    rcases andThen_refused h with ⟨_, _, hk⟩ | hx
    · cases hk
    · unfold load at hx
      split at hx
      · have : translateAddress s.params (effectiveAddress s rs imm) .load = .refuse r := by
          revert hx
          cases translateAddress s.params (effectiveAddress s rs imm) .load <;> simp [Access.map]
        exact ⟨(translate_refuse this).1, _, this⟩
      · cases hx
  have storing {w : Width} {rt : RegNum} {imm : Imm16} {rs : RegNum} (h : storeFrom w rt imm rs s = .refused r) :
      False := by
    rcases andThen_refused h with ⟨_, _, hk⟩ | hx
    · cases hk
    · unfold storeAddress at hx
      split at hx
      · exact (translate_refuse hx).2.2.2.1 rfl
      · cases hx
  cases i
  case beq | bne | blez | bgtz | bltz | bgez | j | jr => exact .inl (branch rfl rfl h)
  case bltzal | bgezal | jal | jalr => exact .inl (branch rfl (writeReg_pend _ _ _) h)
  case eret =>
    simp only [exec, execEret] at h
    split at h
    · next hs =>
      cases h
      exact .inl ⟨rfl, rfl, hs⟩
    · cases h
  case tlbr | tlbwi | tlbwr | tlbp =>
    cases h
    simp
  case lb | lbu | lh | lhu | lw => exact .inr (.inr (loading h))
  case sb | sh | sw => exact (storing h).elim
  case add | sub | addi =>
    simp only [exec, execAdd, execSub, execAddi, writeUnlessOverflow] at h
    split at h <;> cases h
  case tge | tgeu | tlt | tltu | teq | tne | tgei | tgeiu | tlti | tltiu | teqi | tnei =>
    simp only [exec, execTge, execTgeu, execTlt, execTltu, execTeq, execTne, execTgei, execTgeiu, execTlti, execTltiu,
      execTeqi, execTnei, trapWhen] at h
    split at h <;> cases h
  all_goals cases h

/-- THE INVERSION of `step`: what the state before the tick is. -/
theorem step_next {s t : State} (h : step s = .next t) :
    s.refused = false ∧ ∃ u, t = countTick u ∧
      ((interruptTaken s = true ∧ u = enterException .interrupt s) ∨
       (interruptTaken s = false ∧
         ((∃ e, fetch s = .raise e ∧ u = enterException e s) ∨
          (∃ w why, fetch s = .ok w ∧ decode w = .reject why ∧ u = enterException .reservedInstruction s) ∨
          ∃ w i, fetch s = .ok w ∧ decode w = .instr i ∧ exec i s = .next u ∧ Effect i s u))) := by
  unfold step at h
  split at h
  · cases h
  · next hr =>
    refine ⟨by simpa using hr, ?_⟩
    split at h
    · next hi =>
      obtain ⟨u, hu, rfl⟩ := thenTick_next h
      exact ⟨u, rfl, .inl ⟨hi, (Host.Outcome.next.inj hu).symm⟩⟩
    · next hi =>
      obtain ⟨u, hu, rfl⟩ := thenTick_next h
      refine ⟨u, rfl, .inr ⟨by simpa using hi, ?_⟩⟩
      rcases andThen_next hu with ⟨w, hw, hk⟩ | ⟨e, he, hk⟩
      · right
        unfold execWord at hk
        split at hk
        · next i hd => exact .inr ⟨w, i, hw, hd, hk, exec_next hk⟩
        · next why hd => exact .inl ⟨w, why, hw, hd, (Host.Outcome.next.inj hk).symm⟩
      · exact .inl ⟨e, he, hk⟩

end Sys2Proof.Machine
end

