-- ==== Sys2Proof/Laws/Claims.lean ====
section
/-! SUPPORT. The shapes the claims speak of, each shown of the shared operation that makes it. -/

namespace Sys2Proof.Claims
open Sys2Proof.Machine

theorem advanced_retire (s : State) : Advanced s (retire s) := ⟨retire_pc s, retire_pend_valid s⟩

/-- Writing a register and completing. -/
theorem writesRegister_retire (s : State) (d : RegNum) (v : Word) : WritesRegister d v s (retire (writeReg s d v)) := by
  refine ⟨fun hd => ?_, rfl, fun r hr => ?_, ⟨?_, ?_⟩, ?_, ⟨fun a => ?_, ?_, ?_, ?_, ?_, ?_, ?_⟩, ?_, ?_⟩
  · rw [readReg_retire, readReg_writeReg, if_pos ⟨rfl, hd⟩]
  · rw [readReg_retire, readReg_writeReg, if_neg (fun k => hr k.1)]
  · simp
  · simp
  · simp
  · simp
  · simp
  · simp
  · simp
  · simp
  · simp
  · simp
  · rw [retire_pc, writeReg_pend, writeReg_pc]
  · simp

/-- Completing with nothing done. -/
theorem doesNothing_retire (s : State) : DoesNothing s (retire s) := by
  refine ⟨fun r => ?_, ⟨?_, ?_⟩, ?_, ⟨fun a => ?_, ?_, ?_, ?_, ?_, ?_, ?_⟩, advanced_retire s⟩ <;> simp

/-- A state whose HI, LO and draws alone changed, completed. -/
theorem writesHiLo_retire (s : State) (hi lo : Word) (n : Nat) :
    WritesHiLo hi lo s (retire (((s.setHi hi).setLo lo).setDraws n)) := by
  refine ⟨?_, ?_, fun r => ?_, ?_, fun a => ?_, ?_, ⟨?_, ?_, ?_, ?_⟩, ?_, ?_⟩ <;> try simp
  · exact readReg_congr rfl r
  · rw [retire_pc]
    rfl

/-- What a taken-or-not branch outside a delay slot leaves. -/
theorem branches_branchTo (s : State) (target : Word) (d : RegNum) (v : Word) (h : s.pend.valid = false) :
    ∃ t, branchTo target (writeReg s d v) = .next t ∧ Branches target d v s t := by
  rcases branchTo_cases target (writeReg s d v) with ⟨hv, _⟩ | ⟨_, he⟩
  · rw [writeReg_pend, h] at hv
    cases hv
  · refine ⟨_, he, rfl, ?_, fun hd => ?_, rfl, fun r hr => ?_, ⟨?_, ?_⟩, ?_, fun a => ?_, ?_, ?_, ?_, ?_, ?_, ?_⟩ <;>
      try simp
    · refine (readReg_congr (s := writeReg s d v) rfl d).trans ?_
      rw [readReg_writeReg, if_pos ⟨rfl, hd⟩]
    · refine (readReg_congr (s := writeReg s d v) rfl r).trans ?_
      rw [readReg_writeReg, if_neg (fun k => hr k.1)]

/-- Bit j of a word with bit 1 set. -/
theorem or_exlBit_getLsbD (v : Word) (j : Nat) (h : j < 32) :
    (v ||| exlBit).getLsbD j = (decide (j = 1) || v.getLsbD j) := by
  rw [BitVec.getLsbD_or, Bool.or_comm]
  congr 1
  have : ∀ j < 32, exlBit.getLsbD j = decide (j = 1) := by decide
  exact this j h

/-- The entry of an exception, from its three parts. -/
theorem enters_enterException (e : Exc) (s : State) :
    Enters e.code e.badAddress e.tlbAddress.isSome e.isRefill s (enterException e s) := by
  refine ⟨rfl, rfl, rfl, rfl, rfl, rfl, fun j h => ?_, fun j h => or_exlBit_getLsbD _ j h, ⟨rfl, rfl, rfl, rfl, rfl, rfl⟩,
    fun r => rfl, ⟨rfl, rfl⟩, fun a => rfl, rfl, rfl, rfl, rfl, rfl, rfl⟩
  have key (c va : Word) : (contextWithBadVpn2 c va).getLsbD j = if 23 ≤ j then va.getLsbD j else c.getLsbD j := by
    have h' : (va.extractLsb' 23 9 ++ c.extractLsb' 0 23).getLsbD j =
        if 23 ≤ j then va.getLsbD j else c.getLsbD j := by
      rw [BitVec.getLsbD_append]
      split
      · next hj => simp [hj, Nat.not_le.mpr hj]
      · next hj =>
        have : j - 23 < 9 := by omega
        have e : 23 + (j - 23) = j := by omega
        simp [this, Nat.not_lt.mp hj, e]
    exact h'
  cases e <;> simp [cop0Entered, Exc.tlbAddress, Exc.badAddress, key]

/-- The address of a register is its base and offset. -/
theorem registerAddress_eq (l : MmioLayout) (r : MmioReg) : ∃ b base, (b, base) ∈ mmioBases ∧ r ∈ bankRegs b ∧
    registerAddress l r = BitVec.ofNat 32 (base + r.offset l) := by
  have found (b : Bank) (base : Nat) (h : (b, base) ∈ mmioBases) (hr : r ∈ bankRegs b)
      (e : registerAddress l r = BitVec.ofNat 32 (base + r.offset l)) : ∃ b base, (b, base) ∈ mmioBases ∧ r ∈ bankRegs b ∧
      registerAddress l r = BitVec.ofNat 32 (base + r.offset l) := ⟨b, base, h, hr, e⟩
  cases r
  case spStatus | spCmdStart => exact found .sp 0x04000000 (by decide) (by decide) rfl
  case dpStatus => exact found .dp 0x04100000 (by decide) (by decide) rfl
  case miMode | miVersion | miIntr | miIntrMask => exact found .mi 0x04300000 (by decide) (by decide) rfl
  case viOrigin | viWidth | viStatus => exact found .vi 0x04400000 (by decide) (by decide) rfl
  case aiDramAddr | aiLen | aiStatus => exact found .ai 0x04500000 (by decide) (by decide) rfl
  case piDramAddr | piCartAddr | piRdLen | piWrLen | piStatus => exact found .pi 0x04600000 (by decide) (by decide) rfl
  case siDramAddr | siPifRd | siPifWr | siStatus => exact found .si 0x04800000 (by decide) (by decide) rfl

/-- Word accesses at a register's address, in a well-formed construction (20_memory.md R124, R128). -/
theorem bus_registerAddress {s : State} (h : s.params.wellFormed = true) (r : MmioReg) :
    (∀ v, busWrite s (registerAddress s.params.layout r) .word v = mmioWrite s r v) ∧
      busRead s (registerAddress s.params.layout r) .word = mmioRead s.params.layout s.dev r := by
  obtain ⟨_, _, hb, hm, e⟩ := registerAddress_eq s.params.layout r
  exact bus_register h hb hm e

/-- An address of a window that is no register's selects none (20_memory.md R124). -/
theorem mmioReg_unlisted {p : Params} {pa : Word} {b : Bank} {o : Nat} (hr : route p pa = .mmio b o)
    (h : ∀ r, registerAddress p.layout r ≠ pa) : mmioReg p.layout b o = none := by
  cases hm : mmioReg p.layout b o with
  | none => rfl
  | some r =>
    obtain ⟨base, hb, hp⟩ := route_mmio hr
    obtain ⟨hmem, ho⟩ := mmioReg_some hm
    obtain ⟨b', base', hb', hmem', e⟩ := registerAddress_eq p.layout r
    have hbank : ∀ c : Bank, r ∈ bankRegs c → c = b := by
      cases r <;> cases b <;> simp [bankRegs] at hmem <;> intro c hc <;> cases c <;> simp [bankRegs] at hc <;> rfl
    have hbase : base' = base := by
      have := hbank b' hmem'
      subst this
      cases b' <;> simp [mmioBases] at hb hb' <;> omega
    refine absurd ?_ (h r)
    rw [e, hbase, ho, ← hp]
    simp

end Sys2Proof.Claims
end

