-- ==== Sys2Proof/Laws/Encoding.lean ====
section
/-! SUPPORT. The fields of each instruction format (30_encoding.md R151 to R156). -/

namespace Sys2Proof.Laws

/-- A field that lies in the low part of a word. -/
theorem field_low {m n start len : Nat} (x : BitVec m) (y : BitVec n) (h : start + len ≤ n) :
    (x ++ y).extractLsb' start len = y.extractLsb' start len := BitVec.extractLsb'_append_eq_of_add_le h

/-- A field that lies in the high part of a word. -/
theorem field_high {m n start len : Nat} (x : BitVec m) (y : BitVec n) (h : n ≤ start) :
    (x ++ y).extractLsb' start len = x.extractLsb' (start - n) len := BitVec.extractLsb'_append_eq_of_le h

/-! rFormat -/

section
variable (rs rt rd : RegNum) (sa : BitVec 5) (funct : BitVec 6)

@[simp] theorem opcodeOf_rFormat : opcodeOf (rFormat rs rt rd sa funct) = 0#6 :=
  (field_high _ _ (by decide)).trans <| (field_high _ _ (by decide)).trans <| (field_high _ _ (by decide)).trans <| (field_high _ _ (by decide)).trans <| (field_high _ _ (by decide)).trans <| BitVec.extractLsb'_eq_self

@[simp] theorem rsOf_rFormat : rsOf (rFormat rs rt rd sa funct) = rs :=
  (field_high _ _ (by decide)).trans <| (field_high _ _ (by decide)).trans <| (field_high _ _ (by decide)).trans <| (field_high _ _ (by decide)).trans <| (field_low _ _ (by decide)).trans <| BitVec.extractLsb'_eq_self

@[simp] theorem rtOf_rFormat : rtOf (rFormat rs rt rd sa funct) = rt :=
  (field_high _ _ (by decide)).trans <| (field_high _ _ (by decide)).trans <| (field_high _ _ (by decide)).trans <| (field_low _ _ (by decide)).trans <| BitVec.extractLsb'_eq_self

@[simp] theorem rdOf_rFormat : rdOf (rFormat rs rt rd sa funct) = rd :=
  (field_high _ _ (by decide)).trans <| (field_high _ _ (by decide)).trans <| (field_low _ _ (by decide)).trans <| BitVec.extractLsb'_eq_self

@[simp] theorem saOf_rFormat : saOf (rFormat rs rt rd sa funct) = sa :=
  (field_high _ _ (by decide)).trans <| (field_low _ _ (by decide)).trans <| BitVec.extractLsb'_eq_self

@[simp] theorem functOf_rFormat : functOf (rFormat rs rt rd sa funct) = funct :=
  (field_low _ _ (by decide)).trans <| BitVec.extractLsb'_eq_self

end

/-! codeFormat -/

section
variable (code : BitVec 20) (funct : BitVec 6)

@[simp] theorem opcodeOf_codeFormat : opcodeOf (codeFormat code funct) = 0#6 :=
  (field_high _ _ (by decide)).trans <| (field_high _ _ (by decide)).trans <| BitVec.extractLsb'_eq_self

@[simp] theorem code20Of_codeFormat : code20Of (codeFormat code funct) = code :=
  (field_high _ _ (by decide)).trans <| (field_low _ _ (by decide)).trans <| BitVec.extractLsb'_eq_self

@[simp] theorem functOf_codeFormat : functOf (codeFormat code funct) = funct :=
  (field_low _ _ (by decide)).trans <| BitVec.extractLsb'_eq_self

end

/-! trapFormat -/

section
variable (rs rt : RegNum) (code : BitVec 10) (funct : BitVec 6)

@[simp] theorem opcodeOf_trapFormat : opcodeOf (trapFormat rs rt code funct) = 0#6 :=
  (field_high _ _ (by decide)).trans <| (field_high _ _ (by decide)).trans <| (field_high _ _ (by decide)).trans <| (field_high _ _ (by decide)).trans <| BitVec.extractLsb'_eq_self

@[simp] theorem rsOf_trapFormat : rsOf (trapFormat rs rt code funct) = rs :=
  (field_high _ _ (by decide)).trans <| (field_high _ _ (by decide)).trans <| (field_high _ _ (by decide)).trans <| (field_low _ _ (by decide)).trans <| BitVec.extractLsb'_eq_self

@[simp] theorem rtOf_trapFormat : rtOf (trapFormat rs rt code funct) = rt :=
  (field_high _ _ (by decide)).trans <| (field_high _ _ (by decide)).trans <| (field_low _ _ (by decide)).trans <| BitVec.extractLsb'_eq_self

@[simp] theorem code10Of_trapFormat : code10Of (trapFormat rs rt code funct) = code :=
  (field_high _ _ (by decide)).trans <| (field_low _ _ (by decide)).trans <| BitVec.extractLsb'_eq_self

@[simp] theorem functOf_trapFormat : functOf (trapFormat rs rt code funct) = funct :=
  (field_low _ _ (by decide)).trans <| BitVec.extractLsb'_eq_self

end

/-! iFormat -/

section
variable (opcode : BitVec 6) (rs rt : RegNum) (imm : Imm16)

@[simp] theorem opcodeOf_iFormat : opcodeOf (iFormat opcode rs rt imm) = opcode :=
  (field_high _ _ (by decide)).trans <| (field_high _ _ (by decide)).trans <| (field_high _ _ (by decide)).trans <| BitVec.extractLsb'_eq_self

@[simp] theorem rsOf_iFormat : rsOf (iFormat opcode rs rt imm) = rs :=
  (field_high _ _ (by decide)).trans <| (field_high _ _ (by decide)).trans <| (field_low _ _ (by decide)).trans <| BitVec.extractLsb'_eq_self

@[simp] theorem rtOf_iFormat : rtOf (iFormat opcode rs rt imm) = rt :=
  (field_high _ _ (by decide)).trans <| (field_low _ _ (by decide)).trans <| BitVec.extractLsb'_eq_self

@[simp] theorem immOf_iFormat : immOf (iFormat opcode rs rt imm) = imm :=
  (field_low _ _ (by decide)).trans <| BitVec.extractLsb'_eq_self

end

/-! jFormat -/

section
variable (opcode : BitVec 6) (target : BitVec 26)

@[simp] theorem opcodeOf_jFormat : opcodeOf (jFormat opcode target) = opcode :=
  (field_high _ _ (by decide)).trans <| BitVec.extractLsb'_eq_self

@[simp] theorem targetOf_jFormat : targetOf (jFormat opcode target) = target :=
  (field_low _ _ (by decide)).trans <| BitVec.extractLsb'_eq_self

end

/-! cop0MoveFormat -/

section
variable (rs rt rd : RegNum)

@[simp] theorem opcodeOf_cop0MoveFormat : opcodeOf (cop0MoveFormat rs rt rd) = 0x10#6 :=
  (field_high _ _ (by decide)).trans <| (field_high _ _ (by decide)).trans <| (field_high _ _ (by decide)).trans <| (field_high _ _ (by decide)).trans <| BitVec.extractLsb'_eq_self

@[simp] theorem rsOf_cop0MoveFormat : rsOf (cop0MoveFormat rs rt rd) = rs :=
  (field_high _ _ (by decide)).trans <| (field_high _ _ (by decide)).trans <| (field_high _ _ (by decide)).trans <| (field_low _ _ (by decide)).trans <| BitVec.extractLsb'_eq_self

@[simp] theorem rtOf_cop0MoveFormat : rtOf (cop0MoveFormat rs rt rd) = rt :=
  (field_high _ _ (by decide)).trans <| (field_high _ _ (by decide)).trans <| (field_low _ _ (by decide)).trans <| BitVec.extractLsb'_eq_self

@[simp] theorem rdOf_cop0MoveFormat : rdOf (cop0MoveFormat rs rt rd) = rd :=
  (field_high _ _ (by decide)).trans <| (field_low _ _ (by decide)).trans <| BitVec.extractLsb'_eq_self

end

/-! cop0FunctionFormat -/

section
variable (funct : BitVec 6)

@[simp] theorem opcodeOf_cop0FunctionFormat : opcodeOf (cop0FunctionFormat funct) = 0x10#6 :=
  (field_high _ _ (by decide)).trans <| (field_high _ _ (by decide)).trans <| (field_high _ _ (by decide)).trans <| BitVec.extractLsb'_eq_self

@[simp] theorem coOf_cop0FunctionFormat : coOf (cop0FunctionFormat funct) = 1#1 :=
  (field_high _ _ (by decide)).trans <| (field_high _ _ (by decide)).trans <| (field_low _ _ (by decide)).trans <| BitVec.extractLsb'_eq_self

@[simp] theorem functOf_cop0FunctionFormat : functOf (cop0FunctionFormat funct) = funct :=
  (field_low _ _ (by decide)).trans <| BitVec.extractLsb'_eq_self

end

end Sys2Proof.Laws
end

