-- ==== Sys2Proof/Laws/HostOps.lean ====
section
/-! SUPPORT. What the host operations and the scheduler can do. -/

namespace Sys2Proof.Machine

/-- A machine that has refused stays as it is (log 10). -/
theorem HostOp.apply_refused {op : HostOp} {s : State} (h : s.refused = true) : op.apply s = s := if_pos h

/-- A machine that has not refused runs the operation. -/
theorem HostOp.apply_eq {op : HostOp} {s : State} (h : s.refused = false) : op.apply s = op.effect s :=
  if_neg (by simp [h])

/-- A registration for a later cycle (60_exceptions.md R471). -/
theorem scheduleAt_later {s : State} {c : Nat} {cb : Callback} (h : s.sched.cycle < c) :
    Machine.scheduleAt s c cb = s.setSched { s.sched with events := s.sched.events ++ [⟨c, cb⟩] } := if_pos h

/-- A registration for a cycle that is not later. -/
theorem scheduleAt_refused {s : State} {c : Nat} {cb : Callback} (h : c ≤ s.sched.cycle) :
    Machine.scheduleAt s c cb = refuse s := if_neg (by omega)

/-- The registrations of scheduleEvery when all are later (60_exceptions.md R472). -/
theorem registrations (start interval : Nat) (cb : Callback) {s : State} (hs : s.refused = false)
    (h : s.sched.cycle < start) (n : Nat) :
    (List.range n).foldl (fun t k => if t.refused then t else Machine.scheduleAt t (start + k * interval) cb) s =
      s.setSched { s.sched with
        events := s.sched.events ++
          List.ofFn fun k : Fin n => ({ cycle := start + k.val * interval, callback := cb } : Event) } := by
  induction n with
  | zero =>
    simp
    rfl
  | succ n ih =>
    rw [List.range_succ, List.foldl_append, ih]
    simp only [List.foldl_cons, List.foldl_nil, setSched_refused, hs]
    rw [if_neg (by simp), scheduleAt_later (by simp; omega)]
    simp only [setSched_sched, List.ofFn_succ_last, List.append_assoc]
    rfl

/-- No registration after a refusal (log 16). -/
theorem registrations_refused (l : List Nat) (f : State → Nat → State) {s : State} (h : s.refused = true) :
    l.foldl (fun t k => if t.refused then t else f t k) s = s := by
  induction l with
  | nil => rfl
  | cons a l ih => simp [h, ih]

/-- A cycle of a machine that has refused. -/
theorem stepCycle_refused {s : State} (h : s.refused = true) : stepCycle s = s := if_pos h

/-- A cycle of a machine that has not refused (60_exceptions.md R470). -/
theorem stepCycle_eq {s : State} (h : s.refused = false) :
    stepCycle s =
      let counted := s.setSched { s.sched with cycle := s.sched.cycle + 1 }
      HostOp.step.apply ((dueEvents counted).foldl fireEvent counted) := if_neg (by simp [h])

/-- The host's step is the step, with the mark where it is refused (log 5). -/
theorem hostStep_next {s t : State} (h : step s = .next t) : hostStep s = t := by
  unfold hostStep
  rw [h]

theorem hostStep_refused {s : State} {r : Refusal} (h : step s = .refused r) : hostStep s = refuse s := by
  unfold hostStep
  rw [h]

end Sys2Proof.Machine
end

