-- ==== Sys2Proof/Laws/PerInstr.lean ====
section
/-! SUPPORT. Statements made of every instruction, one lemma a constructor. -/

namespace Sys2Proof.Laws

/-! ### What a row's mask keeps of each format -/

theorem rFormat_functMask (rs rt rd : RegNum) (sa : BitVec 5) (f : BitVec 6) :
    rFormat rs rt rd sa f &&& 0xFC00003F = rFormat 0 0 0 0 f := by
  have h : (0#6 ++ rs ++ rt ++ rd ++ sa ++ f) &&& (BitVec.allOnes 6 ++ 0#5 ++ 0#5 ++ 0#5 ++ 0#5 ++ BitVec.allOnes 6) = 0#6 ++ 0#5 ++ 0#5 ++ 0#5 ++ 0#5 ++ f := by
    simp only [BitVec.and_append, BitVec.and_zero, BitVec.and_allOnes]
  exact h

theorem codeFormat_functMask (code : BitVec 20) (f : BitVec 6) :
    codeFormat code f &&& 0xFC00003F = codeFormat 0 f := by
  have h : (0#6 ++ code ++ f) &&& (BitVec.allOnes 6 ++ 0#20 ++ BitVec.allOnes 6) = 0#6 ++ 0#20 ++ f := by
    simp only [BitVec.and_append, BitVec.and_zero, BitVec.and_allOnes]
  exact h

theorem trapFormat_functMask (rs rt : RegNum) (code : BitVec 10) (f : BitVec 6) :
    trapFormat rs rt code f &&& 0xFC00003F = trapFormat 0 0 0 f := by
  have h : (0#6 ++ rs ++ rt ++ code ++ f) &&& (BitVec.allOnes 6 ++ 0#5 ++ 0#5 ++ 0#10 ++ BitVec.allOnes 6) = 0#6 ++ 0#5 ++ 0#5 ++ 0#10 ++ f := by
    simp only [BitVec.and_append, BitVec.and_zero, BitVec.and_allOnes]
  exact h

theorem iFormat_opcodeMask (opcode : BitVec 6) (rs rt : RegNum) (imm : Imm16) :
    iFormat opcode rs rt imm &&& 0xFC000000 = iFormat opcode 0 0 0 := by
  have h : (opcode ++ rs ++ rt ++ imm) &&& (BitVec.allOnes 6 ++ 0#5 ++ 0#5 ++ 0#16) = opcode ++ 0#5 ++ 0#5 ++ 0#16 := by
    simp only [BitVec.and_append, BitVec.and_zero, BitVec.and_allOnes]
  exact h

theorem iFormat_rtMask (opcode : BitVec 6) (rs rt : RegNum) (imm : Imm16) :
    iFormat opcode rs rt imm &&& 0xFC1F0000 = iFormat opcode 0 rt 0 := by
  have h : (opcode ++ rs ++ rt ++ imm) &&& (BitVec.allOnes 6 ++ 0#5 ++ BitVec.allOnes 5 ++ 0#16) = opcode ++ 0#5 ++ rt ++ 0#16 := by
    simp only [BitVec.and_append, BitVec.and_zero, BitVec.and_allOnes]
  exact h

theorem jFormat_opcodeMask (opcode : BitVec 6) (target : BitVec 26) :
    jFormat opcode target &&& 0xFC000000 = jFormat opcode 0 := by
  have h : (opcode ++ target) &&& (BitVec.allOnes 6 ++ 0#26) = opcode ++ 0#26 := by
    simp only [BitVec.and_append, BitVec.and_zero, BitVec.and_allOnes]
  exact h

theorem cop0MoveFormat_rsMask (rs rt rd : RegNum) :
    cop0MoveFormat rs rt rd &&& 0xFFE00000 = cop0MoveFormat rs 0 0 := by
  have h : (0x10#6 ++ rs ++ rt ++ rd ++ 0#11) &&& (BitVec.allOnes 6 ++ BitVec.allOnes 5 ++ 0#5 ++ 0#5 ++ 0#11) = 0x10#6 ++ rs ++ 0#5 ++ 0#5 ++ 0#11 := by
    simp only [BitVec.and_append, BitVec.and_zero, BitVec.and_allOnes]
  exact h

theorem cop0FunctionFormat_functMask (f : BitVec 6) :
    cop0FunctionFormat f &&& 0xFE00003F = cop0FunctionFormat f := by
  have h : (0x10#6 ++ 1#1 ++ 0#19 ++ f) &&& (BitVec.allOnes 6 ++ BitVec.allOnes 1 ++ 0#19 ++ BitVec.allOnes 6) = 0x10#6 ++ 1#1 ++ 0#19 ++ f := by
    simp only [BitVec.and_append, BitVec.and_zero, BitVec.and_allOnes]
  exact h

/-! ### TableRow: an instruction's word selects its row of the opcode table (30_encoding.md R173) -/

/-- The word of an instruction selects its row. -/
def TableRow.Statement (i : Instr) : Prop := i.row.selects (encode i)

theorem TableRow.add (rd : RegNum) (rs : RegNum) (rt : RegNum) : TableRow.Statement (.add rd rs rt) := rFormat_functMask _ _ _ _ _
theorem TableRow.addu (rd : RegNum) (rs : RegNum) (rt : RegNum) : TableRow.Statement (.addu rd rs rt) := rFormat_functMask _ _ _ _ _
theorem TableRow.sub (rd : RegNum) (rs : RegNum) (rt : RegNum) : TableRow.Statement (.sub rd rs rt) := rFormat_functMask _ _ _ _ _
theorem TableRow.subu (rd : RegNum) (rs : RegNum) (rt : RegNum) : TableRow.Statement (.subu rd rs rt) := rFormat_functMask _ _ _ _ _
theorem TableRow.and (rd : RegNum) (rs : RegNum) (rt : RegNum) : TableRow.Statement (.and rd rs rt) := rFormat_functMask _ _ _ _ _
theorem TableRow.or (rd : RegNum) (rs : RegNum) (rt : RegNum) : TableRow.Statement (.or rd rs rt) := rFormat_functMask _ _ _ _ _
theorem TableRow.xor (rd : RegNum) (rs : RegNum) (rt : RegNum) : TableRow.Statement (.xor rd rs rt) := rFormat_functMask _ _ _ _ _
theorem TableRow.nor (rd : RegNum) (rs : RegNum) (rt : RegNum) : TableRow.Statement (.nor rd rs rt) := rFormat_functMask _ _ _ _ _
theorem TableRow.slt (rd : RegNum) (rs : RegNum) (rt : RegNum) : TableRow.Statement (.slt rd rs rt) := rFormat_functMask _ _ _ _ _
theorem TableRow.sltu (rd : RegNum) (rs : RegNum) (rt : RegNum) : TableRow.Statement (.sltu rd rs rt) := rFormat_functMask _ _ _ _ _
theorem TableRow.addi (rt : RegNum) (rs : RegNum) (imm : Imm16) : TableRow.Statement (.addi rt rs imm) := iFormat_opcodeMask _ _ _ _
theorem TableRow.addiu (rt : RegNum) (rs : RegNum) (imm : Imm16) : TableRow.Statement (.addiu rt rs imm) := iFormat_opcodeMask _ _ _ _
theorem TableRow.slti (rt : RegNum) (rs : RegNum) (imm : Imm16) : TableRow.Statement (.slti rt rs imm) := iFormat_opcodeMask _ _ _ _
theorem TableRow.sltiu (rt : RegNum) (rs : RegNum) (imm : Imm16) : TableRow.Statement (.sltiu rt rs imm) := iFormat_opcodeMask _ _ _ _
theorem TableRow.andi (rt : RegNum) (rs : RegNum) (imm : Imm16) : TableRow.Statement (.andi rt rs imm) := iFormat_opcodeMask _ _ _ _
theorem TableRow.ori (rt : RegNum) (rs : RegNum) (imm : Imm16) : TableRow.Statement (.ori rt rs imm) := iFormat_opcodeMask _ _ _ _
theorem TableRow.xori (rt : RegNum) (rs : RegNum) (imm : Imm16) : TableRow.Statement (.xori rt rs imm) := iFormat_opcodeMask _ _ _ _
theorem TableRow.lui (rt : RegNum) (imm : Imm16) : TableRow.Statement (.lui rt imm) := iFormat_opcodeMask _ _ _ _
theorem TableRow.sll (rd : RegNum) (rt : RegNum) (sa : BitVec 5) : TableRow.Statement (.sll rd rt sa) := rFormat_functMask _ _ _ _ _
theorem TableRow.srl (rd : RegNum) (rt : RegNum) (sa : BitVec 5) : TableRow.Statement (.srl rd rt sa) := rFormat_functMask _ _ _ _ _
theorem TableRow.sra (rd : RegNum) (rt : RegNum) (sa : BitVec 5) : TableRow.Statement (.sra rd rt sa) := rFormat_functMask _ _ _ _ _
theorem TableRow.sllv (rd : RegNum) (rt : RegNum) (rs : RegNum) : TableRow.Statement (.sllv rd rt rs) := rFormat_functMask _ _ _ _ _
theorem TableRow.srlv (rd : RegNum) (rt : RegNum) (rs : RegNum) : TableRow.Statement (.srlv rd rt rs) := rFormat_functMask _ _ _ _ _
theorem TableRow.srav (rd : RegNum) (rt : RegNum) (rs : RegNum) : TableRow.Statement (.srav rd rt rs) := rFormat_functMask _ _ _ _ _
theorem TableRow.mult (rs : RegNum) (rt : RegNum) : TableRow.Statement (.mult rs rt) := rFormat_functMask _ _ _ _ _
theorem TableRow.multu (rs : RegNum) (rt : RegNum) : TableRow.Statement (.multu rs rt) := rFormat_functMask _ _ _ _ _
theorem TableRow.div (rs : RegNum) (rt : RegNum) : TableRow.Statement (.div rs rt) := rFormat_functMask _ _ _ _ _
theorem TableRow.divu (rs : RegNum) (rt : RegNum) : TableRow.Statement (.divu rs rt) := rFormat_functMask _ _ _ _ _
theorem TableRow.mfhi (rd : RegNum) : TableRow.Statement (.mfhi rd) := rFormat_functMask _ _ _ _ _
theorem TableRow.mflo (rd : RegNum) : TableRow.Statement (.mflo rd) := rFormat_functMask _ _ _ _ _
theorem TableRow.mthi (rs : RegNum) : TableRow.Statement (.mthi rs) := rFormat_functMask _ _ _ _ _
theorem TableRow.mtlo (rs : RegNum) : TableRow.Statement (.mtlo rs) := rFormat_functMask _ _ _ _ _
theorem TableRow.lb (rt : RegNum) (imm : Imm16) (rs : RegNum) : TableRow.Statement (.lb rt imm rs) := iFormat_opcodeMask _ _ _ _
theorem TableRow.lbu (rt : RegNum) (imm : Imm16) (rs : RegNum) : TableRow.Statement (.lbu rt imm rs) := iFormat_opcodeMask _ _ _ _
theorem TableRow.lh (rt : RegNum) (imm : Imm16) (rs : RegNum) : TableRow.Statement (.lh rt imm rs) := iFormat_opcodeMask _ _ _ _
theorem TableRow.lhu (rt : RegNum) (imm : Imm16) (rs : RegNum) : TableRow.Statement (.lhu rt imm rs) := iFormat_opcodeMask _ _ _ _
theorem TableRow.lw (rt : RegNum) (imm : Imm16) (rs : RegNum) : TableRow.Statement (.lw rt imm rs) := iFormat_opcodeMask _ _ _ _
theorem TableRow.sb (rt : RegNum) (imm : Imm16) (rs : RegNum) : TableRow.Statement (.sb rt imm rs) := iFormat_opcodeMask _ _ _ _
theorem TableRow.sh (rt : RegNum) (imm : Imm16) (rs : RegNum) : TableRow.Statement (.sh rt imm rs) := iFormat_opcodeMask _ _ _ _
theorem TableRow.sw (rt : RegNum) (imm : Imm16) (rs : RegNum) : TableRow.Statement (.sw rt imm rs) := iFormat_opcodeMask _ _ _ _
theorem TableRow.beq (rs : RegNum) (rt : RegNum) (imm : Imm16) : TableRow.Statement (.beq rs rt imm) := iFormat_opcodeMask _ _ _ _
theorem TableRow.bne (rs : RegNum) (rt : RegNum) (imm : Imm16) : TableRow.Statement (.bne rs rt imm) := iFormat_opcodeMask _ _ _ _
theorem TableRow.blez (rs : RegNum) (imm : Imm16) : TableRow.Statement (.blez rs imm) := iFormat_opcodeMask _ _ _ _
theorem TableRow.bgtz (rs : RegNum) (imm : Imm16) : TableRow.Statement (.bgtz rs imm) := iFormat_opcodeMask _ _ _ _
theorem TableRow.bltz (rs : RegNum) (imm : Imm16) : TableRow.Statement (.bltz rs imm) := iFormat_rtMask _ _ _ _
theorem TableRow.bgez (rs : RegNum) (imm : Imm16) : TableRow.Statement (.bgez rs imm) := iFormat_rtMask _ _ _ _
theorem TableRow.bltzal (rs : RegNum) (imm : Imm16) : TableRow.Statement (.bltzal rs imm) := iFormat_rtMask _ _ _ _
theorem TableRow.bgezal (rs : RegNum) (imm : Imm16) : TableRow.Statement (.bgezal rs imm) := iFormat_rtMask _ _ _ _
theorem TableRow.j (target : BitVec 26) : TableRow.Statement (.j target) := jFormat_opcodeMask _ _
theorem TableRow.jal (target : BitVec 26) : TableRow.Statement (.jal target) := jFormat_opcodeMask _ _
theorem TableRow.jr (rs : RegNum) : TableRow.Statement (.jr rs) := rFormat_functMask _ _ _ _ _
theorem TableRow.jalr (rd : RegNum) (rs : RegNum) : TableRow.Statement (.jalr rd rs) := rFormat_functMask _ _ _ _ _
theorem TableRow.syscall (code : BitVec 20) : TableRow.Statement (.syscall code) := codeFormat_functMask _ _
theorem TableRow.brk (code : BitVec 20) : TableRow.Statement (.brk code) := codeFormat_functMask _ _
theorem TableRow.tge (rs : RegNum) (rt : RegNum) (code : BitVec 10) : TableRow.Statement (.tge rs rt code) := trapFormat_functMask _ _ _ _
theorem TableRow.tgeu (rs : RegNum) (rt : RegNum) (code : BitVec 10) : TableRow.Statement (.tgeu rs rt code) := trapFormat_functMask _ _ _ _
theorem TableRow.tlt (rs : RegNum) (rt : RegNum) (code : BitVec 10) : TableRow.Statement (.tlt rs rt code) := trapFormat_functMask _ _ _ _
theorem TableRow.tltu (rs : RegNum) (rt : RegNum) (code : BitVec 10) : TableRow.Statement (.tltu rs rt code) := trapFormat_functMask _ _ _ _
theorem TableRow.teq (rs : RegNum) (rt : RegNum) (code : BitVec 10) : TableRow.Statement (.teq rs rt code) := trapFormat_functMask _ _ _ _
theorem TableRow.tne (rs : RegNum) (rt : RegNum) (code : BitVec 10) : TableRow.Statement (.tne rs rt code) := trapFormat_functMask _ _ _ _
theorem TableRow.tgei (rs : RegNum) (imm : Imm16) : TableRow.Statement (.tgei rs imm) := iFormat_rtMask _ _ _ _
theorem TableRow.tgeiu (rs : RegNum) (imm : Imm16) : TableRow.Statement (.tgeiu rs imm) := iFormat_rtMask _ _ _ _
theorem TableRow.tlti (rs : RegNum) (imm : Imm16) : TableRow.Statement (.tlti rs imm) := iFormat_rtMask _ _ _ _
theorem TableRow.tltiu (rs : RegNum) (imm : Imm16) : TableRow.Statement (.tltiu rs imm) := iFormat_rtMask _ _ _ _
theorem TableRow.teqi (rs : RegNum) (imm : Imm16) : TableRow.Statement (.teqi rs imm) := iFormat_rtMask _ _ _ _
theorem TableRow.tnei (rs : RegNum) (imm : Imm16) : TableRow.Statement (.tnei rs imm) := iFormat_rtMask _ _ _ _
theorem TableRow.mtc0 (rt : RegNum) (rd : RegNum) : TableRow.Statement (.mtc0 rt rd) := cop0MoveFormat_rsMask _ _ _
theorem TableRow.mfc0 (rt : RegNum) (rd : RegNum) : TableRow.Statement (.mfc0 rt rd) := cop0MoveFormat_rsMask _ _ _
theorem TableRow.eret : TableRow.Statement .eret := cop0FunctionFormat_functMask _
theorem TableRow.sync : TableRow.Statement .sync := rFormat_functMask _ _ _ _ _
theorem TableRow.cache (op : RegNum) (imm : Imm16) (base : RegNum) : TableRow.Statement (.cache op imm base) := iFormat_opcodeMask _ _ _ _
theorem TableRow.tlbr : TableRow.Statement .tlbr := cop0FunctionFormat_functMask _
theorem TableRow.tlbwi : TableRow.Statement .tlbwi := cop0FunctionFormat_functMask _
theorem TableRow.tlbwr : TableRow.Statement .tlbwr := cop0FunctionFormat_functMask _
theorem TableRow.tlbp : TableRow.Statement .tlbp := cop0FunctionFormat_functMask _
theorem TableRow.cop1 : TableRow.Statement .cop1 := jFormat_opcodeMask _ _
theorem TableRow.cop2 : TableRow.Statement .cop2 := jFormat_opcodeMask _ _
theorem TableRow.cop3 : TableRow.Statement .cop3 := jFormat_opcodeMask _ _
theorem TableRow.lwc1 : TableRow.Statement .lwc1 := jFormat_opcodeMask _ _
theorem TableRow.lwc2 : TableRow.Statement .lwc2 := jFormat_opcodeMask _ _
theorem TableRow.ldc1 : TableRow.Statement .ldc1 := jFormat_opcodeMask _ _
theorem TableRow.ldc2 : TableRow.Statement .ldc2 := jFormat_opcodeMask _ _
theorem TableRow.swc1 : TableRow.Statement .swc1 := jFormat_opcodeMask _ _
theorem TableRow.swc2 : TableRow.Statement .swc2 := jFormat_opcodeMask _ _
theorem TableRow.sdc1 : TableRow.Statement .sdc1 := jFormat_opcodeMask _ _
theorem TableRow.sdc2 : TableRow.Statement .sdc2 := jFormat_opcodeMask _ _
theorem TableRow.beql : TableRow.Statement .beql := jFormat_opcodeMask _ _
theorem TableRow.bnel : TableRow.Statement .bnel := jFormat_opcodeMask _ _
theorem TableRow.blezl : TableRow.Statement .blezl := jFormat_opcodeMask _ _
theorem TableRow.bgtzl : TableRow.Statement .bgtzl := jFormat_opcodeMask _ _
theorem TableRow.daddi : TableRow.Statement .daddi := jFormat_opcodeMask _ _
theorem TableRow.daddiu : TableRow.Statement .daddiu := jFormat_opcodeMask _ _
theorem TableRow.ldl : TableRow.Statement .ldl := jFormat_opcodeMask _ _
theorem TableRow.ldr : TableRow.Statement .ldr := jFormat_opcodeMask _ _
theorem TableRow.special2 : TableRow.Statement .special2 := jFormat_opcodeMask _ _
theorem TableRow.special3 : TableRow.Statement .special3 := jFormat_opcodeMask _ _
theorem TableRow.lwl : TableRow.Statement .lwl := jFormat_opcodeMask _ _
theorem TableRow.lwr : TableRow.Statement .lwr := jFormat_opcodeMask _ _
theorem TableRow.lwu : TableRow.Statement .lwu := jFormat_opcodeMask _ _
theorem TableRow.swl : TableRow.Statement .swl := jFormat_opcodeMask _ _
theorem TableRow.sdl : TableRow.Statement .sdl := jFormat_opcodeMask _ _
theorem TableRow.sdr : TableRow.Statement .sdr := jFormat_opcodeMask _ _
theorem TableRow.swr : TableRow.Statement .swr := jFormat_opcodeMask _ _
theorem TableRow.ll : TableRow.Statement .ll := jFormat_opcodeMask _ _
theorem TableRow.pref : TableRow.Statement .pref := jFormat_opcodeMask _ _
theorem TableRow.lld : TableRow.Statement .lld := jFormat_opcodeMask _ _
theorem TableRow.ld : TableRow.Statement .ld := jFormat_opcodeMask _ _
theorem TableRow.sc : TableRow.Statement .sc := jFormat_opcodeMask _ _
theorem TableRow.swc3 : TableRow.Statement .swc3 := jFormat_opcodeMask _ _
theorem TableRow.scd : TableRow.Statement .scd := jFormat_opcodeMask _ _
theorem TableRow.sd : TableRow.Statement .sd := jFormat_opcodeMask _ _
theorem TableRow.bltzl : TableRow.Statement .bltzl := iFormat_rtMask _ _ _ _
theorem TableRow.bgezl : TableRow.Statement .bgezl := iFormat_rtMask _ _ _ _
theorem TableRow.bltzall : TableRow.Statement .bltzall := iFormat_rtMask _ _ _ _
theorem TableRow.bgezall : TableRow.Statement .bgezall := iFormat_rtMask _ _ _ _
theorem TableRow.movci : TableRow.Statement .movci := rFormat_functMask _ _ _ _ _
theorem TableRow.movz : TableRow.Statement .movz := rFormat_functMask _ _ _ _ _
theorem TableRow.movn : TableRow.Statement .movn := rFormat_functMask _ _ _ _ _
theorem TableRow.dsllv : TableRow.Statement .dsllv := rFormat_functMask _ _ _ _ _
theorem TableRow.dsrlv : TableRow.Statement .dsrlv := rFormat_functMask _ _ _ _ _
theorem TableRow.dsrav : TableRow.Statement .dsrav := rFormat_functMask _ _ _ _ _
theorem TableRow.dmult : TableRow.Statement .dmult := rFormat_functMask _ _ _ _ _
theorem TableRow.dmultu : TableRow.Statement .dmultu := rFormat_functMask _ _ _ _ _
theorem TableRow.ddiv : TableRow.Statement .ddiv := rFormat_functMask _ _ _ _ _
theorem TableRow.ddivu : TableRow.Statement .ddivu := rFormat_functMask _ _ _ _ _
theorem TableRow.dadd : TableRow.Statement .dadd := rFormat_functMask _ _ _ _ _
theorem TableRow.daddu : TableRow.Statement .daddu := rFormat_functMask _ _ _ _ _
theorem TableRow.dsub : TableRow.Statement .dsub := rFormat_functMask _ _ _ _ _
theorem TableRow.dsubu : TableRow.Statement .dsubu := rFormat_functMask _ _ _ _ _
theorem TableRow.dsll : TableRow.Statement .dsll := rFormat_functMask _ _ _ _ _
theorem TableRow.dsrl : TableRow.Statement .dsrl := rFormat_functMask _ _ _ _ _
theorem TableRow.dsra : TableRow.Statement .dsra := rFormat_functMask _ _ _ _ _
theorem TableRow.dsll32 : TableRow.Statement .dsll32 := rFormat_functMask _ _ _ _ _
theorem TableRow.dsrl32 : TableRow.Statement .dsrl32 := rFormat_functMask _ _ _ _ _
theorem TableRow.dsra32 : TableRow.Statement .dsra32 := rFormat_functMask _ _ _ _ _
theorem TableRow.dmfc0 : TableRow.Statement .dmfc0 := cop0MoveFormat_rsMask _ _ _
theorem TableRow.dmtc0 : TableRow.Statement .dmtc0 := cop0MoveFormat_rsMask _ _ _
theorem TableRow.rfe : TableRow.Statement .rfe := cop0FunctionFormat_functMask _
theorem TableRow.deret : TableRow.Statement .deret := cop0FunctionFormat_functMask _
theorem TableRow.wait : TableRow.Statement .wait := cop0FunctionFormat_functMask _

end Sys2Proof.Laws
end

