-- ==== Sys2Proof/Laws/Scheduler.lean ====
section
/-! SUPPORT. The machine does not read the list of scheduled events: a step, and each host operation, does the same
whatever is in it, and can only append later events to it. So the callbacks due at a cycle run as they would with the
due events taken out of the list before (60_exceptions.md R470, R471). -/

namespace Sys2Proof.Machine

/-- A result with another scheduler in its next state. -/
def withSched (x : Sched) : Result → Result
  | .next t => .next (t.setSched x)
  | .fault f => .fault f
  | .refused r => .refused r

section
variable (x : Sched) (s : State)

theorem ite_sched_free (c : Prop) [Decidable c] (a b : State) :
    (if c then a.setSched x else b.setSched x) = (if c then a else b).setSched x :=
  (apply_ite (State.setSched · x) c a b).symm

theorem retire_sched_free : retire (s.setSched x) = (retire s).setSched x := by
  unfold retire
  rw [setSched_pend]
  split <;> rfl

theorem complete_sched_free (h : State) : complete (h.setSched x) = withSched x (complete h) :=
  congrArg _ (retire_sched_free x h)

theorem branchTo_sched_free (target : Word) : branchTo target (s.setSched x) = withSched x (branchTo target s) := by
  unfold branchTo
  rw [setSched_pend]
  split <;> rfl

theorem writeReg_sched_free (r : RegNum) (v : Word) : writeReg (s.setSched x) r v = (writeReg s r v).setSched x := by
  unfold writeReg
  split <;> rfl

theorem overflow_sched_free (c : Bool) (d : RegNum) (v : Word) :
    writeUnlessOverflow c d v (s.setSched x) = withSched x (writeUnlessOverflow c d v s) := by
  unfold writeUnlessOverflow
  split
  · rfl
  · exact (congrArg complete (writeReg_sched_free x s d v)).trans (complete_sched_free x _)

theorem write_sched_free (d : RegNum) (v : Word) :
    writeAndComplete d v (s.setSched x) = withSched x (writeAndComplete d v s) :=
  (congrArg complete (writeReg_sched_free x s d v)).trans (complete_sched_free x _)

theorem trap_sched_free (c : Bool) : trapWhen c (s.setSched x) = withSched x (trapWhen c s) := by
  unfold trapWhen
  split
  · rfl
  · exact complete_sched_free x s

theorem mmioWrite_sched_free (r : MmioReg) (v : Word) :
    mmioWrite (s.setSched x) r v = (mmioWrite s r v).setSched x := by
  cases r
  case miIntrMask =>
    unfold mmioWrite miMaskWrite
    dsimp only
    split <;> rfl
  case dpStatus | viStatus | aiStatus | siStatus => exact ite_sched_free x _ (s.setDev _) s
  all_goals rfl

theorem busWrite_sched_free (pa : Word) (w : Width) (v : Word) :
    busWrite (s.setSched x) pa w v = (busWrite s pa w v).setSched x := by
  unfold busWrite
  rw [setSched_params]
  split
  · rfl
  · unfold mmioStore
    cases w
    case word =>
      dsimp only [setSched_params]
      split
      · exact mmioWrite_sched_free x s _ v
      · rfl
    all_goals rfl
  · rfl

theorem andThen_sched_free {α : Type} (a : Access α) {k k' : α → Result} (h : ∀ v, k' v = withSched x (k v)) :
    a.andThen (s.setSched x) k' = withSched x (a.andThen s k) := by
  cases a
  · exact h _
  · rfl
  · rfl

theorem loadInto_sched_free (w : Width) (f : Word → Word) (rt : RegNum) (imm : Imm16) (rs : RegNum) :
    loadInto w f rt imm rs (s.setSched x) = withSched x (loadInto w f rt imm rs s) :=
  andThen_sched_free x s (load s (effectiveAddress s rs imm) w) fun v => write_sched_free x s rt (f v)

theorem storeFrom_sched_free (w : Width) (rt : RegNum) (imm : Imm16) (rs : RegNum) :
    storeFrom w rt imm rs (s.setSched x) = withSched x (storeFrom w rt imm rs s) :=
  andThen_sched_free x s (storeAddress s (effectiveAddress s rs imm) w) fun pa =>
    (congrArg complete (busWrite_sched_free x s pa w (readReg s rt))).trans (complete_sched_free x _)

theorem link_sched_free (target : Word) (d : RegNum) (v : Word) :
    branchTo target (writeReg (s.setSched x) d v) = withSched x (branchTo target (writeReg s d v)) :=
  (congrArg (branchTo target) (writeReg_sched_free x s d v)).trans (branchTo_sched_free x _ target)

/-- No instruction reads or writes the scheduler. -/
theorem exec_sched_free (i : Instr) : exec i (s.setSched x) = withSched x (exec i s) := by
  have quotient (zero : Prop) [Decidable zero] (q r : Int) :
      complete (if zero then writeDrawnQuotient (s.setSched x) else writeQuotient (s.setSched x) q r) =
        withSched x (complete (if zero then writeDrawnQuotient s else writeQuotient s q r)) := by
    split
    · exact complete_sched_free x (writeDrawnQuotient s)
    · exact complete_sched_free x (writeQuotient s q r)
  cases i
  case add | sub | addi => exact overflow_sched_free x s _ _ _
  case addu | subu | and | or | xor | nor | slt | sltu | addiu | slti | sltiu | andi | ori | xori | lui | sll | srl | sra |
      sllv | srlv | srav | mfhi | mflo | mfc0 => exact write_sched_free x s _ _
  case mult | multu => exact complete_sched_free x (writeProduct s _)
  case mthi rs => exact complete_sched_free x (s.setHi (readReg s rs))
  case mtlo rs => exact complete_sched_free x (s.setLo (readReg s rs))
  case mtc0 rt n => exact complete_sched_free x (cop0Write s n (readReg s rt))
  case sync | cache => exact complete_sched_free x s
  case div | divu => exact quotient _ _ _
  case lb | lbu | lh | lhu | lw => exact loadInto_sched_free x s _ _ _ _ _
  case sb | sh | sw => exact storeFrom_sched_free x s _ _ _ _
  case beq | bne | blez | bgtz | bltz | bgez | j | jr => exact branchTo_sched_free x s _
  case bltzal | bgezal | jal | jalr => exact link_sched_free x s _ _ _
  case tge | tgeu | tlt | tltu | teq | tne | tgei | tgeiu | tlti | tltiu | teqi | tnei => exact trap_sched_free x s _
  case eret =>
    change execEret (s.setSched x) = withSched x (execEret s)
    unfold execEret
    rw [setSched_pend]
    split <;> rfl
  all_goals rfl

/-- No step reads or writes the scheduler. -/
theorem step_sched_free : step (s.setSched x) = withSched x (step s) := by
  have tick (r : Result) : thenTick (withSched x r) = withSched x (thenTick r) := by cases r <;> rfl
  have word (w : Word) : execWord w (s.setSched x) = withSched x (execWord w s) := by
    unfold execWord
    split
    · exact exec_sched_free x s _
    · rfl
  unfold step
  rw [setSched_refused]
  split
  · rfl
  · have : interruptTaken (s.setSched x) = interruptTaken s := rfl
    rw [this]
    split
    · rfl
    · exact (congrArg thenTick (andThen_sched_free x s (fetch s) word)).trans (tick _)

theorem hostStep_sched_free : hostStep (s.setSched x) = (hostStep s).setSched x := by
  unfold hostStep
  rw [step_sched_free]
  cases step s <;> rfl

theorem hostLoad_sched_free (va : Word) (w : Width) : (hostLoad (s.setSched x) va w).2 = (hostLoad s va w).2.setSched x := by
  unfold hostLoad
  rw [show hostTranslate (s.setSched x) va w = hostTranslate s va w from rfl]
  cases hostTranslate s va w <;> rfl

theorem hostStore_sched_free (va : Word) (w : Width) (v : Word) :
    hostStore (s.setSched x) va w v = (hostStore s va w v).setSched x := by
  unfold hostStore
  rw [show hostTranslate (s.setSched x) va w = hostTranslate s va w from rfl]
  cases hostTranslate s va w
  · rfl
  · exact busWrite_sched_free x s _ w v

end

/-- Whether a host operation is one of the two that register events (60_exceptions.md R471, R472). -/
def HostOp.schedules : HostOp → Bool
  | .scheduleAt .. | .scheduleEvery .. => true
  | _ => false

/-- No other host operation reads or writes the scheduler. -/
theorem HostOp.effect_sched_free {op : HostOp} (h : op.schedules = false) (x : Sched) (s : State) :
    op.effect (s.setSched x) = (op.effect s).setSched x := by
  cases op
  case step => exact hostStep_sched_free x s
  case setReg r v => exact writeReg_sched_free x s r v
  case load w va => exact hostLoad_sched_free x s va w
  case store w va v => exact hostStore_sched_free x s va w v
  case pokeRam a b => exact ite_sched_free x (a < s.params.ramSize) (s.setRam (s.ram.write a b)) s
  case piCompleteDma =>
    simp only [HostOp.effect, Machine.piCompleteDma, setSched_dev]
    exact ite_sched_free x _ ((s.setRam _).setDev _) s
  case scheduleAt | scheduleEvery => cases h
  all_goals rfl

/-- The state with another list of scheduled events. -/
def withEvents (events : List Event) (s : State) : State := s.setSched { s.sched with events := events }

/-- What a host operation, or a sequence of them, does to the scheduler: it keeps the cycle, appends events of later
cycles, and does the same whatever was scheduled before (60_exceptions.md R471). -/
def Appends (f : State → State) (s : State) : Prop :=
  (f s).sched.cycle = s.sched.cycle ∧ ∃ new : List Event, (∀ e ∈ new, s.sched.cycle < e.cycle) ∧
    ∀ l, f (withEvents l s) = withEvents (l ++ new) (f s)

/-- What leaves the scheduler alone. -/
theorem Appends.of_sched_free {f : State → State} {s : State} (h : ∀ x, f (s.setSched x) = (f s).setSched x) :
    Appends f s := by
  have : (f s).sched = s.sched := by
    rw [show f s = (f s).setSched s.sched from h s.sched]
    rfl
  refine ⟨by rw [this], [], by simp, fun l => ?_⟩
  rw [List.append_nil, withEvents, withEvents, h, this]

/-- What registers the events `new` and leaves, but for them, the state `t`. -/
theorem Appends.of_registers {f : State → State} {s t : State} (new : List Event) (h : ∀ e ∈ new, s.sched.cycle < e.cycle)
    (ht : t.sched.cycle = s.sched.cycle) (hf : ∀ l, f (withEvents l s) = withEvents (l ++ new) t) : Appends f s := by
  have e : f s = withEvents (s.sched.events ++ new) t := hf s.sched.events
  exact ⟨by rw [e]; exact ht, new, h, fun l => by rw [hf, e]; rfl⟩

/-- One after the other. -/
theorem Appends.comp {f g : State → State} {s : State} (hf : Appends f s) (hg : Appends g (f s)) :
    Appends (fun t => g (f t)) s := by
  obtain ⟨cf, nf, lf, ef⟩ := hf
  obtain ⟨cg, ng, lg, eg⟩ := hg
  refine ⟨cg.trans cf, nf ++ ng, fun e he => ?_, fun l => ?_⟩
  · rcases List.mem_append.1 he with h | h
    · exact lf e h
    · exact cf ▸ lg e h
  · change g (f (withEvents l s)) = _
    rw [← List.append_assoc, ef, eg]

/-- Every host operation. -/
theorem HostOp.appends (op : HostOp) (s : State) : Appends op.apply s := by
  by_cases hr : s.refused = true
  · exact .of_sched_free fun x => by rw [HostOp.apply_refused hr, HostOp.apply_refused (s := s.setSched x) hr]
  have hr : s.refused = false := by simpa using hr
  by_cases hs : op.schedules = false
  · exact .of_sched_free fun x => by
      rw [HostOp.apply_eq hr, HostOp.apply_eq (s := s.setSched x) hr, effect_sched_free hs]
  have refusing (h : ∀ l, op.effect (withEvents l s) = refuse (withEvents l s)) : Appends op.apply s :=
    .of_registers (t := refuse s) [] (by simp) rfl fun l => by
      rw [HostOp.apply_eq (s := withEvents l s) hr, h, List.append_nil]
      rfl
  cases op
  case scheduleAt n cb =>
    by_cases h : s.sched.cycle < n
    · refine .of_registers [⟨n, cb⟩] (by simpa using h) rfl fun l => ?_
      exact (HostOp.apply_eq (s := withEvents l s) hr).trans (scheduleAt_later (s := withEvents l s) h)
    · exact refusing fun l => scheduleAt_refused (s := withEvents l s) (Nat.le_of_not_lt h)
  case scheduleEvery n interval times cb =>
    by_cases hi : interval = 0
    · exact refusing fun l => if_pos hi
    have run (l : List Event) : (HostOp.scheduleEvery n interval times cb).apply (withEvents l s) =
        (List.range times).foldl (fun t k => if t.refused then t else Machine.scheduleAt t (n + k * interval) cb)
          (withEvents l s) := (HostOp.apply_eq (s := withEvents l s) hr).trans (if_neg hi)
    by_cases h : s.sched.cycle < n
    · refine .of_registers (List.ofFn fun k : Fin times => ⟨n + k.val * interval, cb⟩) (fun e he => ?_) rfl fun l => ?_
      · obtain ⟨k, rfl⟩ := List.mem_ofFn.1 he
        exact Nat.lt_of_lt_of_le h (Nat.le_add_right _ _)
      · rw [run, registrations (s := withEvents l s) n interval cb hr h]
        rfl
    · cases times with
      | zero => exact .of_registers (t := s) [] (by simp) rfl fun l => by rw [run, List.append_nil]; rfl
      | succ m =>
        refine refusing fun l => ?_
        rw [← HostOp.apply_eq (s := withEvents l s) hr, run, List.range_succ_eq_map, List.foldl_cons,
          if_neg (by simp [withEvents, hr]), Nat.zero_mul, Nat.add_zero,
          scheduleAt_refused (s := withEvents l s) (Nat.le_of_not_lt h)]
        exact registrations_refused _ _ rfl
  all_goals exact absurd rfl hs

/-- Host operations one after another. -/
theorem applyAll_appends (ops : List HostOp) (s : State) : Appends (applyAll ops) s := by
  induction ops generalizing s with
  | nil => exact .of_sched_free fun _ => rfl
  | cons op ops ih => exact (HostOp.appends op s).comp (ih _)

theorem applyAll_append (a b : List HostOp) (s : State) : applyAll (a ++ b) s = applyAll b (applyAll a s) :=
  List.foldl_append

theorem applyAll_refused (ops : List HostOp) {s : State} (h : s.refused = true) : applyAll ops s = s := by
  induction ops with
  | nil => rfl
  | cons op ops ih => exact (congrArg (applyAll ops) (HostOp.apply_refused h)).trans ih

theorem fireEvents_refused (due : List Event) {s : State} (h : s.refused = true) : due.foldl fireEvent s = s := by
  induction due with
  | nil => rfl
  | cons e due ih => rw [List.foldl_cons, fireEvent, if_pos h, ih]

/-- Removing the first due event. -/
theorem filter_erase_head {α : Type} [DecidableEq α] {p : α → Bool} {l due : List α} {e : α} (h : l.filter p = e :: due) :
    (l.erase e).filter p = due ∧ (l.erase e).filter (fun x => !p x) = l.filter (fun x => !p x) := by
  induction l with
  | nil => simp at h
  | cons a l ih =>
    by_cases ha : p a = true
    · rw [List.filter_cons_of_pos ha] at h
      obtain ⟨rfl, rfl⟩ := List.cons.inj h
      simp [ha]
    · have he : p e = true := (List.mem_filter.1 (h ▸ List.mem_cons_self : e ∈ (a :: l).filter p)).2
      have hne : a ≠ e := fun k => ha (k ▸ he)
      rw [List.filter_cons_of_neg ha] at h
      rw [List.erase_cons_tail (by simpa using hne)]
      simp [ha, ih h]

/-- THE EVENTS DUE: firing them one by one runs their callbacks in order, as if all had been taken out of the list before,
unless an operation is refused (60_exceptions.md R470, R474). -/
theorem fireEvents (due : List Event) (s : State) (l : List Event)
    (h : l.filter (fun e => e.cycle == s.sched.cycle) = due) :
    let u := applyAll (due.flatMap fun e => e.callback.ops) (withEvents (l.filter fun e => !(e.cycle == s.sched.cycle)) s)
    (u.refused = false → due.foldl fireEvent (withEvents l s) = u) ∧
      (u.refused = true → (due.foldl fireEvent (withEvents l s)).refused = true) := by
  induction due generalizing s l with
  | nil =>
    have : (l.filter fun e => !(e.cycle == s.sched.cycle)) = l := by
      rw [List.filter_eq_nil_iff] at h
      exact List.filter_eq_self.2 fun e he => by simpa using h e he
    rw [this]
    exact ⟨fun _ => rfl, id⟩
  | cons e due ih =>
    by_cases hr : s.refused = true
    · rw [applyAll_refused _ (by exact hr), fireEvents_refused _ (by exact hr)]
      exact ⟨fun k => by simp [withEvents, hr] at k, id⟩
    obtain ⟨hc, new, hn, ha⟩ := applyAll_appends e.callback.ops s
    obtain ⟨h1, h2⟩ := filter_erase_head h
    rw [List.flatMap_cons, applyAll_append, ha, List.foldl_cons]
    have hf : fireEvent (withEvents l s) e = withEvents (l.erase e ++ new) (applyAll e.callback.ops s) := by
      rw [← ha]
      exact if_neg hr
    have hnew : new.filter (fun e => e.cycle == s.sched.cycle) = [] :=
      List.filter_eq_nil_iff.2 fun e he => by have := hn e he; simp; omega
    have hnew' : new.filter (fun e => !(e.cycle == s.sched.cycle)) = new :=
      List.filter_eq_self.2 fun e he => by have := hn e he; simp; omega
    have := ih (applyAll e.callback.ops s) (l.erase e ++ new) (by rw [hc, List.filter_append, h1, hnew, List.append_nil])
    rw [hc, List.filter_append, h2, hnew'] at this
    rw [hf]
    exact this

end Sys2Proof.Machine
end

