-- ==== Sys2Proof/Tests/Slice0.lean ====
section
/-! SUPPORT. The model's own tests: decoding of words written out from the spec's encodings, the WellFormed smoke tests,
the vectors of spec/95_test_vectors.md (named in each comment), and a witness for the hypotheses of each claim. -/

namespace Sys2Proof.Tests
open Sys2Proof.Machine Sys2Proof.Claims

/-! ### The start state of 95_test_vectors.md section 0 -/

/-- General registers set one after another. -/
def withRegs (rs : List (RegNum × Word)) (s : State) : State := rs.foldl (fun t r => writeReg t r.1 r.2) s

/-- pc = 0x8000_0100 and the word under test there. -/
def start (w : Nat) (rs : List (RegNum × Word)) : State :=
  (withRegs rs (hostSetPc State.reset 0x80000100)).withFetchWord 32 w

/-- An observation of the state after one step. -/
def look {α : Type} (s : State) (f : State → α) : Option α :=
  match step s with
  | .next t => some (f t)
  | .fault _ => none
  | .refused _ => none

/-- The reason one step is refused. -/
def refusal (s : State) : Option Refusal :=
  match step s with
  | .next _ => none
  | .fault _ => none
  | .refused r => some r

/-- x[n]. -/
def x (n : RegNum) (t : State) : Word := readReg t n

/-- Cause, EPC and pc: an exception entry. -/
def entry (t : State) : Word × Word × Word := (cop0Read t 13, t.cp0.epc, t.pc)

/-- The slot's target and valid bit, and pc. -/
def slot (t : State) : Word × Bool × Word := (t.pend.target, t.pend.valid, t.pc)

/-- RAM bytes 0x200 to 0x203 set, as in section 2.4. -/
def withWord200 (v : Word) (s : State) : State := s.setRam (s.ram.writeWide 0x200 v .word)

/-- The example tlbLookup of section 2.4. -/
def exampleTlb : List TlbRange :=
  [⟨0, 0xFFF, .fetch, .hit 0x2000⟩, ⟨0, 0xFFF, .load, .hit 0x2000⟩, ⟨0, 0xFFF, .store, .hit 0x2000⟩] ++
    [⟨0x1000, 0x1FFF, .store, .modified⟩, ⟨0x2000, 0x2FFF, .load, .invalid⟩, ⟨0x2000, 0x2FFF, .store, .invalid⟩]

/-- A machine constructed with other parameters. -/
def withParams (p : Params) (s : State) : State := { s with params := p }

/-- tlbMode 1 with the example tlbLookup. -/
def tlbParams : Params := { Params.atReset with tlbMode := true, tlb := exampleTlb }

/-- Another layout of 20_memory.md R128: the MI registers from 0x20 on, and DP's flags and ack bit elsewhere. -/
def movedParams : Params :=
  { Params.atReset with layout := { defaultLayout with
      mi := { mode := 0x20, version := 0x24, intr := 0x28, intrMask := 0xFFFFC }
      dp := { status := 0, pipeBusyBit := 0, busyBit := 31, ackBit := 5 } } }

/-- tlbMode 1 with a tlbLookup that breaks its requirement: Modified for a load. -/
def badParams : Params := { Params.atReset with tlbMode := true, tlb := [⟨0, 0xFFF, .load, .modified⟩] }

/-! ### Every constructor's decoding, by a word written out from 30_encoding.md R152 to R167, ignored fields not 0 -/

theorem test_decode_arithmetic :
    decode 0b000000_00001_00010_00011_00100_100000#32 = .instr (.add 3 1 2) ∧
    decode 0b000000_00001_00010_00011_00100_100001#32 = .instr (.addu 3 1 2) ∧
    decode 0b000000_00001_00010_00011_00100_100010#32 = .instr (.sub 3 1 2) ∧
    decode 0b000000_00001_00010_00011_00100_100011#32 = .instr (.subu 3 1 2) ∧
    decode 0b000000_00001_00010_00011_00100_100100#32 = .instr (.and 3 1 2) ∧
    decode 0b000000_00001_00010_00011_00100_100101#32 = .instr (.or 3 1 2) ∧
    decode 0b000000_00001_00010_00011_00100_100110#32 = .instr (.xor 3 1 2) ∧
    decode 0b000000_00001_00010_00011_00100_100111#32 = .instr (.nor 3 1 2) ∧
    decode 0b000000_00001_00010_00011_00100_101010#32 = .instr (.slt 3 1 2) ∧
    decode 0b000000_00001_00010_00011_00100_101011#32 = .instr (.sltu 3 1 2) := by decide

theorem test_decode_immediate :
    decode 0b001000_00001_00010_1000000000000101#32 = .instr (.addi 2 1 0x8005) ∧
    decode 0b001001_00001_00010_1000000000000101#32 = .instr (.addiu 2 1 0x8005) ∧
    decode 0b001010_00001_00010_1000000000000101#32 = .instr (.slti 2 1 0x8005) ∧
    decode 0b001011_00001_00010_1000000000000101#32 = .instr (.sltiu 2 1 0x8005) ∧
    decode 0b001100_00001_00010_1000000000000101#32 = .instr (.andi 2 1 0x8005) ∧
    decode 0b001101_00001_00010_1000000000000101#32 = .instr (.ori 2 1 0x8005) ∧
    decode 0b001110_00001_00010_1000000000000101#32 = .instr (.xori 2 1 0x8005) ∧
    decode 0b001111_00001_00010_1000000000000101#32 = .instr (.lui 2 0x8005) := by decide

theorem test_decode_shift :
    decode 0b000000_00001_00010_00011_00100_000000#32 = .instr (.sll 3 2 4) ∧
    decode 0b000000_00001_00010_00011_00100_000010#32 = .instr (.srl 3 2 4) ∧
    decode 0b000000_00001_00010_00011_00100_000011#32 = .instr (.sra 3 2 4) ∧
    decode 0b000000_00001_00010_00011_00100_000100#32 = .instr (.sllv 3 2 1) ∧
    decode 0b000000_00001_00010_00011_00100_000110#32 = .instr (.srlv 3 2 1) ∧
    decode 0b000000_00001_00010_00011_00100_000111#32 = .instr (.srav 3 2 1) := by decide

theorem test_decode_muldiv :
    decode 0b000000_00001_00010_00011_00100_011000#32 = .instr (.mult 1 2) ∧
    decode 0b000000_00001_00010_00011_00100_011001#32 = .instr (.multu 1 2) ∧
    decode 0b000000_00001_00010_00011_00100_011010#32 = .instr (.div 1 2) ∧
    decode 0b000000_00001_00010_00011_00100_011011#32 = .instr (.divu 1 2) ∧
    decode 0b000000_00001_00010_00011_00100_010000#32 = .instr (.mfhi 3) ∧
    decode 0b000000_00001_00010_00011_00100_010010#32 = .instr (.mflo 3) ∧
    decode 0b000000_00001_00010_00011_00100_010001#32 = .instr (.mthi 1) ∧
    decode 0b000000_00001_00010_00011_00100_010011#32 = .instr (.mtlo 1) := by decide

theorem test_decode_loadstore :
    decode 0b100000_00001_00010_1000000000000101#32 = .instr (.lb 2 0x8005 1) ∧
    decode 0b100100_00001_00010_1000000000000101#32 = .instr (.lbu 2 0x8005 1) ∧
    decode 0b100001_00001_00010_1000000000000101#32 = .instr (.lh 2 0x8005 1) ∧
    decode 0b100101_00001_00010_1000000000000101#32 = .instr (.lhu 2 0x8005 1) ∧
    decode 0b100011_00001_00010_1000000000000101#32 = .instr (.lw 2 0x8005 1) ∧
    decode 0b101000_00001_00010_1000000000000101#32 = .instr (.sb 2 0x8005 1) ∧
    decode 0b101001_00001_00010_1000000000000101#32 = .instr (.sh 2 0x8005 1) ∧
    decode 0b101011_00001_00010_1000000000000101#32 = .instr (.sw 2 0x8005 1) := by decide

theorem test_decode_branch :
    decode 0b000100_00001_00010_1000000000000101#32 = .instr (.beq 1 2 0x8005) ∧
    decode 0b000101_00001_00010_1000000000000101#32 = .instr (.bne 1 2 0x8005) ∧
    decode 0b000110_00001_00010_1000000000000101#32 = .instr (.blez 1 0x8005) ∧
    decode 0b000111_00001_00010_1000000000000101#32 = .instr (.bgtz 1 0x8005) ∧
    decode 0b000001_00001_00000_1000000000000101#32 = .instr (.bltz 1 0x8005) ∧
    decode 0b000001_00001_00001_1000000000000101#32 = .instr (.bgez 1 0x8005) ∧
    decode 0b000001_00001_10000_1000000000000101#32 = .instr (.bltzal 1 0x8005) ∧
    decode 0b000001_00001_10001_1000000000000101#32 = .instr (.bgezal 1 0x8005) := by decide

theorem test_decode_jump :
    decode 0b000010_10000000000000000001000001#32 = .instr (.j 0x2000041) ∧
    decode 0b000011_10000000000000000001000001#32 = .instr (.jal 0x2000041) ∧
    decode 0b000000_00001_00010_00011_00100_001000#32 = .instr (.jr 1) ∧
    decode 0b000000_00001_00010_00011_00100_001001#32 = .instr (.jalr 3 1) := by decide

theorem test_decode_trap :
    decode 0b000000_10000000000000000001_001100#32 = .instr (.syscall 0x80001) ∧
    decode 0b000000_10000000000000000001_001101#32 = .instr (.brk 0x80001) ∧
    decode 0b000000_00001_00010_1000000001_110000#32 = .instr (.tge 1 2 0x201) ∧
    decode 0b000000_00001_00010_1000000001_110001#32 = .instr (.tgeu 1 2 0x201) ∧
    decode 0b000000_00001_00010_1000000001_110010#32 = .instr (.tlt 1 2 0x201) ∧
    decode 0b000000_00001_00010_1000000001_110011#32 = .instr (.tltu 1 2 0x201) ∧
    decode 0b000000_00001_00010_1000000001_110100#32 = .instr (.teq 1 2 0x201) ∧
    decode 0b000000_00001_00010_1000000001_110110#32 = .instr (.tne 1 2 0x201) ∧
    decode 0b000001_00001_01000_1000000000000101#32 = .instr (.tgei 1 0x8005) ∧
    decode 0b000001_00001_01001_1000000000000101#32 = .instr (.tgeiu 1 0x8005) ∧
    decode 0b000001_00001_01010_1000000000000101#32 = .instr (.tlti 1 0x8005) ∧
    decode 0b000001_00001_01011_1000000000000101#32 = .instr (.tltiu 1 0x8005) ∧
    decode 0b000001_00001_01100_1000000000000101#32 = .instr (.teqi 1 0x8005) ∧
    decode 0b000001_00001_01110_1000000000000101#32 = .instr (.tnei 1 0x8005) := by decide

theorem test_decode_system :
    decode 0b010000_00100_00010_00011_10000000001#32 = .instr (.mtc0 2 3) ∧
    decode 0b010000_00000_00010_00011_10000000001#32 = .instr (.mfc0 2 3) ∧
    decode 0b010000_1_1000000000000000001_011000#32 = .instr .eret ∧
    decode 0b000000_10000000000000000001_001111#32 = .instr .sync ∧
    decode 0b101111_11110_10101_1000000000000101#32 = .instr (.cache 21 0x8005 30) ∧
    decode 0b010000_1_1000000000000000001_000001#32 = .instr .tlbr ∧
    decode 0b010000_1_1000000000000000001_000010#32 = .instr .tlbwi ∧
    decode 0b010000_1_1000000000000000001_000110#32 = .instr .tlbwr ∧
    decode 0b010000_1_1000000000000000001_001000#32 = .instr .tlbp := by decide

theorem test_decode_coprocessor :
    decode 0b010001_10000000000000000001000001#32 = .instr .cop1 ∧
    decode 0b010010_10000000000000000001000001#32 = .instr .cop2 ∧
    decode 0b010011_10000000000000000001000001#32 = .instr .cop3 ∧
    decode 0b110001_10000000000000000001000001#32 = .instr .lwc1 ∧
    decode 0b110010_10000000000000000001000001#32 = .instr .lwc2 ∧
    decode 0b110101_10000000000000000001000001#32 = .instr .ldc1 ∧
    decode 0b110110_10000000000000000001000001#32 = .instr .ldc2 ∧
    decode 0b111001_10000000000000000001000001#32 = .instr .swc1 ∧
    decode 0b111010_10000000000000000001000001#32 = .instr .swc2 ∧
    decode 0b111101_10000000000000000001000001#32 = .instr .sdc1 ∧
    decode 0b111110_10000000000000000001000001#32 = .instr .sdc2 := by decide

theorem test_decode_reserved_primary_low :
    decode 0b010100_10000000000000000001000001#32 = .instr .beql ∧
    decode 0b010101_10000000000000000001000001#32 = .instr .bnel ∧
    decode 0b010110_10000000000000000001000001#32 = .instr .blezl ∧
    decode 0b010111_10000000000000000001000001#32 = .instr .bgtzl ∧
    decode 0b011000_10000000000000000001000001#32 = .instr .daddi ∧
    decode 0b011001_10000000000000000001000001#32 = .instr .daddiu ∧
    decode 0b011010_10000000000000000001000001#32 = .instr .ldl ∧
    decode 0b011011_10000000000000000001000001#32 = .instr .ldr ∧
    decode 0b011100_10000000000000000001000001#32 = .instr .special2 ∧
    decode 0b011111_10000000000000000001000001#32 = .instr .special3 ∧
    decode 0b100010_10000000000000000001000001#32 = .instr .lwl ∧
    decode 0b100110_10000000000000000001000001#32 = .instr .lwr ∧
    decode 0b100111_10000000000000000001000001#32 = .instr .lwu := by decide

theorem test_decode_reserved_primary_high :
    decode 0b101010_10000000000000000001000001#32 = .instr .swl ∧
    decode 0b101100_10000000000000000001000001#32 = .instr .sdl ∧
    decode 0b101101_10000000000000000001000001#32 = .instr .sdr ∧
    decode 0b101110_10000000000000000001000001#32 = .instr .swr ∧
    decode 0b110000_10000000000000000001000001#32 = .instr .ll ∧
    decode 0b110011_10000000000000000001000001#32 = .instr .pref ∧
    decode 0b110100_10000000000000000001000001#32 = .instr .lld ∧
    decode 0b110111_10000000000000000001000001#32 = .instr .ld ∧
    decode 0b111000_10000000000000000001000001#32 = .instr .sc ∧
    decode 0b111011_10000000000000000001000001#32 = .instr .swc3 ∧
    decode 0b111100_10000000000000000001000001#32 = .instr .scd ∧
    decode 0b111111_10000000000000000001000001#32 = .instr .sd := by decide

theorem test_decode_reserved_special :
    decode 0b000000_00001_00010_00011_00100_000001#32 = .instr .movci ∧
    decode 0b000000_00001_00010_00011_00100_001010#32 = .instr .movz ∧
    decode 0b000000_00001_00010_00011_00100_001011#32 = .instr .movn ∧
    decode 0b000000_00001_00010_00011_00100_010100#32 = .instr .dsllv ∧
    decode 0b000000_00001_00010_00011_00100_010110#32 = .instr .dsrlv ∧
    decode 0b000000_00001_00010_00011_00100_010111#32 = .instr .dsrav ∧
    decode 0b000000_00001_00010_00011_00100_011100#32 = .instr .dmult ∧
    decode 0b000000_00001_00010_00011_00100_011101#32 = .instr .dmultu ∧
    decode 0b000000_00001_00010_00011_00100_011110#32 = .instr .ddiv ∧
    decode 0b000000_00001_00010_00011_00100_011111#32 = .instr .ddivu ∧
    decode 0b000000_00001_00010_00011_00100_101100#32 = .instr .dadd ∧
    decode 0b000000_00001_00010_00011_00100_101101#32 = .instr .daddu ∧
    decode 0b000000_00001_00010_00011_00100_101110#32 = .instr .dsub ∧
    decode 0b000000_00001_00010_00011_00100_101111#32 = .instr .dsubu ∧
    decode 0b000000_00001_00010_00011_00100_111000#32 = .instr .dsll ∧
    decode 0b000000_00001_00010_00011_00100_111010#32 = .instr .dsrl ∧
    decode 0b000000_00001_00010_00011_00100_111011#32 = .instr .dsra ∧
    decode 0b000000_00001_00010_00011_00100_111100#32 = .instr .dsll32 ∧
    decode 0b000000_00001_00010_00011_00100_111110#32 = .instr .dsrl32 ∧
    decode 0b000000_00001_00010_00011_00100_111111#32 = .instr .dsra32 := by decide

theorem test_decode_reserved_regimm_cop0 :
    decode 0b000001_00001_00010_1000000000000101#32 = .instr .bltzl ∧
    decode 0b000001_00001_00011_1000000000000101#32 = .instr .bgezl ∧
    decode 0b000001_00001_10010_1000000000000101#32 = .instr .bltzall ∧
    decode 0b000001_00001_10011_1000000000000101#32 = .instr .bgezall ∧
    decode 0b010000_00001_00010_00011_10000000001#32 = .instr .dmfc0 ∧
    decode 0b010000_00101_00010_00011_10000000001#32 = .instr .dmtc0 ∧
    decode 0b010000_1_1000000000000000001_010000#32 = .instr .rfe ∧
    decode 0b010000_1_1000000000000000001_011111#32 = .instr .deret ∧
    decode 0b010000_1_1000000000000000001_100000#32 = .instr .wait := by decide

/-- Reserved words with no row are rejected by name: opcode 0x1D, SPECIAL 0x05, REGIMM 0x04, COP0 rs 2, COP0 funct 0. -/
theorem test_decode_rejects :
    decode 0x74000000#32 = .reject (.reservedOpcode 0x1D) ∧ decode 0x00000005#32 = .reject (.reservedSpecial 0x05) ∧
    decode 0x04040000#32 = .reject (.reservedRegimm 0x04) ∧ decode 0x40400000#32 = .reject (.reservedCop0Move 0x02) ∧
    decode 0x42000000#32 = .reject (.reservedCop0Function 0x00) ∧ decodeBytes [0x24, 0x42, 0xFF] = (.reject .tooFewBytes, [0x24, 0x42, 0xFF]) := by
  decide

/-- The table's numbering: bit 0 is the least significant bit of the word (98_reader.md). -/
theorem test_decodeTableWord : decodeTableWord 32 0x00221821 = some (.addu 3 1 2) ∧ decodeTableWord 32 0x74000000 = none := by
  decide

/-! ### WellFormed: one ill-formed term for each check -/

theorem test_wellFormed_reset : Params.atReset.wellFormed = true ∧ tlbParams.wellFormed = true := by decide
theorem test_wellFormed_ramSize_multiple : { Params.atReset with ramSize := 6 }.wellFormed = false := by decide
theorem test_wellFormed_ramSize_bound : { Params.atReset with ramSize := 0x04000004 }.wellFormed = false := by decide
theorem test_wellFormed_divisor : { Params.atReset with countDivisor := 0 }.wellFormed = false := by decide
theorem test_wellFormed_modified_on_load : badParams.wellFormed = false := by decide
theorem test_wellFormed_misaligned_hit :
    { Params.atReset with tlb := [⟨0, 0xFFF, .load, .hit 0x2002⟩] }.wellFormed = false := by decide
theorem test_wellFormed_offset_multiple :
    { Params.atReset with layout := { defaultLayout with mi := { defaultLayout.mi with mode := 2 } } }.wellFormed = false := by
  decide
theorem test_wellFormed_offset_window :
    { Params.atReset with layout := { defaultLayout with dp := { defaultLayout.dp with status := 0x100000 } } }.wellFormed =
      false := by decide
theorem test_wellFormed_offsets_distinct :
    { Params.atReset with layout := { defaultLayout with vi := { defaultLayout.vi with width := 4 } } }.wellFormed = false := by
  decide
theorem test_wellFormed_branch_in_delay_slot : delaySlotsWellFormed [.beq 0 0 4, .beq 0 0 4] = false := by decide
theorem test_wellFormed_eret_in_delay_slot : delaySlotsWellFormed [.jr 31, .eret] = false := by decide
theorem test_wellFormed_eret_has_no_slot : delaySlotsWellFormed [.eret, .jr 31, .sync] = true := by decide

/-! ### 95_test_vectors.md section 2 -/

/-- A1. -/
theorem test_add_sum : look (start 0x00221820 [(1, 0x00000005), (2, 0xFFFFFFFD)]) (x 3) = some 0x00000002 := by decide

/-- A4. -/
theorem test_add_r0_overflows :
    look (start 0x00220020 [(1, 0x7FFFFFFF), (2, 0x00000001)]) entry = some (0x00000030, 0x80000100, 0x80000180) := by
  decide

/-- A6. -/
theorem test_addu_wraps :
    look (start 0x00221821 [(1, 0x7FFFFFFF), (2, 0x00000001)]) (x 3) = some 0x80000000 := by
  decide

/-- A7. -/
theorem test_addu_r0 : look (start 0x00220021 [(1, 0x00000003), (2, 0x00000004)]) (x 0) = some 0x00000000 := by decide

/-- A8. -/
theorem test_sub_overflows :
    look (start 0x00221822 [(1, 0x00000000), (2, 0x80000000)]) entry = some (0x00000030, 0x80000100, 0x80000180) := by
  decide

/-- A9. -/
theorem test_sub_edge :
    look (start 0x00221822 [(1, 0xFFFFFFFF), (2, 0x7FFFFFFF)]) (x 3) = some 0x80000000 := by
  decide

/-- A11. -/
theorem test_subu_wraps :
    look (start 0x00221823 [(1, 0x00000000), (2, 0x00000001)]) (x 3) = some 0xFFFFFFFF := by
  decide

/-- A12. -/
theorem test_and : look (start 0x00221824 [(1, 0xF0F01234), (2, 0x0FF0FF00)]) (x 3) = some 0x00F01200 := by decide

/-- A13. -/
theorem test_or : look (start 0x00211825 [(1, 0x12345678)]) (x 3) = some 0x12345678 := by decide

/-- A14. -/
theorem test_xor_self :
    look (start 0x00211826 [(1, 0x12345678), (3, 0xFFFFFFFF)]) (x 3) = some 0x00000000 := by
  decide

/-- A15. -/
theorem test_nor : look (start 0x00001827 []) (x 3) = some 0xFFFFFFFF := by decide

/-- A16. -/
theorem test_slt_signed :
    look (start 0x0022182A [(1, 0x80000000), (2, 0x7FFFFFFF)]) (x 3) = some 0x00000001 := by
  decide

/-- A17. -/
theorem test_sltu_unsigned :
    look (start 0x0022182B [(1, 0x80000000), (2, 0x7FFFFFFF)]) (x 3) = some 0x00000000 := by
  decide

/-- A19. -/
theorem test_addi_sign_extends : look (start 0x20228000 [(1, 0x00000000)]) (x 2) = some 0xFFFF8000 := by decide

/-- A20. -/
theorem test_addi_overflows :
    look (start 0x2022FFFF [(1, 0x80000000)]) entry = some (0x00000030, 0x80000100, 0x80000180) := by
  decide

/-- A21. -/
theorem test_addiu : look (start 0x24228000 [(1, 0x80000000)]) (x 2) = some 0x7FFF8000 := by decide

/-- A22. -/
theorem test_slti : look (start 0x28220000 [(1, 0x80000000)]) (x 2) = some 0x00000001 := by decide

/-- A23. -/
theorem test_sltiu_sign_extends : look (start 0x2C22FFFF [(1, 0xFFFFFFFF)]) (x 2) = some 0x00000000 := by decide

/-- A24. -/
theorem test_sltiu_zero : look (start 0x2C220001 [(1, 0x00000000)]) (x 2) = some 0x00000001 := by decide

/-- A25. -/
theorem test_andi_zero_extends : look (start 0x3022FFFF [(1, 0xFFFFFFFF)]) (x 2) = some 0x0000FFFF := by decide

/-- A26. -/
theorem test_ori : look (start 0x34028000 []) (x 2) = some 0x00008000 := by decide

/-- A27. -/
theorem test_xori : look (start 0x3822FFFF [(1, 0xFFFF0000)]) (x 2) = some 0xFFFFFFFF := by decide

/-- A28. -/
theorem test_lui : look (start 0x3C02FFFF []) (x 2) = some 0xFFFF0000 := by decide

/-- A31. -/
theorem test_sll_31 : look (start 0x000117C0 [(1, 0x00000003)]) (x 2) = some 0x80000000 := by decide

/-- A32. -/
theorem test_srl_0 : look (start 0x00011002 [(1, 0x89ABCDEF)]) (x 2) = some 0x89ABCDEF := by decide

/-- A33. -/
theorem test_sra_negative : look (start 0x00011103 [(1, 0x80000000)]) (x 2) = some 0xF8000000 := by decide

/-- A34. -/
theorem test_sra_positive : look (start 0x00011103 [(1, 0x70000000)]) (x 2) = some 0x07000000 := by decide

/-- A35. -/
theorem test_sllv_low_bits :
    look (start 0x00221804 [(1, 0xFFFFFFFF), (2, 0x00000001)]) (x 3) = some 0x80000000 := by
  decide

/-- A36. -/
theorem test_srlv_32_is_0 :
    look (start 0x00221806 [(1, 0x00000020), (2, 0x80000000)]) (x 3) = some 0x80000000 := by
  decide

/-- A37. -/
theorem test_srav : look (start 0x00221807 [(1, 0x0000001F), (2, 0x80000000)]) (x 3) = some 0xFFFFFFFF := by decide

/-- D1. -/
theorem test_mult_negative :
    look (start 0x00220018 [(1, 0xFFFFFFFE), (2, 0x00000003)]) (fun t => (t.hi, t.lo)) = some (0xFFFFFFFF, 0xFFFFFFFA) := by
  decide

/-- D4. -/
theorem test_mult_corner :
    look (start 0x00220018 [(1, 0x80000000), (2, 0xFFFFFFFF)]) (fun t => (t.hi, t.lo)) = some (0x00000000, 0x80000000) := by
  decide

/-- D5. -/
theorem test_multu :
    look (start 0x00220019 [(1, 0xFFFFFFFF), (2, 0xFFFFFFFF)]) (fun t => (t.hi, t.lo)) = some (0xFFFFFFFE, 0x00000001) := by
  decide

/-- D8. -/
theorem test_div_truncates :
    look (start 0x0022001A [(1, 0xFFFFFFF9), (2, 0x00000002)]) (fun t => (t.hi, t.lo)) = some (0xFFFFFFFF, 0xFFFFFFFD) := by
  decide

/-- D11. -/
theorem test_div_overflow :
    look (start 0x0022001A [(1, 0x80000000), (2, 0xFFFFFFFF)]) (fun t => (t.hi, t.lo)) = some (0x00000000, 0x80000000) := by
  decide

/-- D14. -/
theorem test_divu :
    look (start 0x0022001B [(1, 0xFFFFFFF9), (2, 0x00000002)]) (fun t => (t.hi, t.lo)) = some (0x00000001, 0x7FFFFFFC) := by
  decide

/-- D13. -/
theorem test_div_by_zero_no_exception :
    look (start 0x0022001A [(1, 0x00000005), (2, 0x00000000)]) (fun t => (x 1 t, x 2 t, t.pc)) = some (5, 0, 0x80000104) := by
  decide

/-- D17. -/
theorem test_mfhi : look ((start 0x00001810 []).setHi 0x11111111) (x 3) = some 0x11111111 := by decide

/-- D18. -/
theorem test_mflo : look ((start 0x00001812 []).setLo 0x22222222) (x 3) = some 0x22222222 := by decide

/-- D19. -/
theorem test_mthi :
    look (start 0x00200011 [(1, 0xCAFEBABE)]) (fun t => (t.hi, t.lo)) = some (0xCAFEBABE, 0) := by
  decide

/-- D20. -/
theorem test_mtlo :
    look (start 0x00200013 [(1, 0xCAFEBABE)]) (fun t => (t.hi, t.lo)) = some (0, 0xCAFEBABE) := by
  decide

/-- B1. -/
theorem test_beq_taken :
    look (start 0x10220003 [(1, 0x00000007), (2, 0x00000007)]) slot = some (0x80000110, true, 0x80000104) := by
  decide

/-- B2. -/
theorem test_beq_not_taken :
    look (start 0x10220003 [(1, 0x00000007), (2, 0x00000008)]) slot = some (0x80000108, true, 0x80000104) := by
  decide

/-- B5. -/
theorem test_bne :
    look (start 0x1422FFFE [(1, 0x00000001), (2, 0x00000002)]) slot = some (0x800000FC, true, 0x80000104) := by
  decide

/-- B7. -/
theorem test_blez_minimum :
    look (start 0x18200001 [(1, 0x80000000)]) slot = some (0x80000108, true, 0x80000104) := by
  decide

/-- B9. -/
theorem test_bgtz_zero :
    look (start 0x1C200005 [(1, 0x00000000)]) slot = some (0x80000108, true, 0x80000104) := by
  decide

/-- B10. -/
theorem test_bgtz_maximum :
    look (start 0x1C200005 [(1, 0x7FFFFFFF)]) slot = some (0x80000118, true, 0x80000104) := by
  decide

/-- B11. -/
theorem test_bltz : look (start 0x04200002 [(1, 0xFFFFFFFF)]) slot = some (0x8000010C, true, 0x80000104) := by decide

/-- B13. -/
theorem test_bgez_zero :
    look (start 0x0421FFFF [(1, 0x00000000)]) slot = some (0x80000100, true, 0x80000104) := by
  decide

/-- B16. -/
theorem test_bltzal_reads_before_link :
    look (start 0x07F00004 [(31, 0x80000000)]) (fun t => (x 31 t, slot t)) = some (0x80000108, 0x80000114, true, 0x80000104) := by
  decide

/-- B15. -/
theorem test_bltzal_not_taken_links :
    look (start 0x04300004 [(1, 0x00000001)]) (fun t => (x 31 t, slot t)) = some (0x80000108, 0x80000108, true, 0x80000104) := by
  decide

/-- B17. -/
theorem test_bgezal :
    look (start 0x04110010 []) (fun t => (x 31 t, slot t)) = some (0x80000108, 0x80000144, true, 0x80000104) := by
  decide

/-- B18. -/
theorem test_j : look (start 0x08000100 []) slot = some (0x80000400, true, 0x80000104) := by decide

/-- B19. -/
theorem test_jal :
    look (start 0x0C000400 []) (fun t => (x 31 t, slot t)) = some (0x80000108, 0x80001000, true, 0x80000104) := by
  decide

/-- B21. -/
theorem test_jr_misaligned :
    look (start 0x00200008 [(1, 0x80000202)]) slot = some (0x80000202, true, 0x80000104) := by
  decide

/-- B23. -/
theorem test_jalr_same_register :
    look (start 0x00802009 [(4, 0x80002000)]) (fun t => (x 4 t, slot t)) = some (0x80000108, 0x80002000, true, 0x80000104) := by
  decide

/-- B24. -/
theorem test_jalr_r0 :
    look (start 0x00800009 [(4, 0x80002000)]) slot = some (0x80002000, true, 0x80000104) := by
  decide

/-- L1. -/
theorem test_lb :
    look (withWord200 0x80818283 (start 0x80220001 [(1, 0x80000200)])) (x 2) = some 0xFFFFFF81 := by
  decide

/-- L3. -/
theorem test_lbu :
    look (withWord200 0x80818283 (start 0x90220003 [(1, 0x80000200)])) (x 2) = some 0x00000083 := by
  decide

/-- L4. -/
theorem test_lh :
    look (withWord200 0x80818283 (start 0x84220002 [(1, 0x80000200)])) (x 2) = some 0xFFFF8283 := by
  decide

/-- L5. -/
theorem test_lh_misaligned :
    look (withWord200 0x80818283 (start 0x84220001 [(1, 0x80000200)])) (fun t => (entry t, t.cp0.badVAddr)) = some ((0x00000010, 0x80000100, 0x80000180), 0x80000201) := by
  decide

/-- L6. -/
theorem test_lhu :
    look (withWord200 0x80818283 (start 0x94220000 [(1, 0x80000200)])) (x 2) = some 0x00008081 := by
  decide

/-- L8. -/
theorem test_lw_negative_offset :
    look (withWord200 0x80818283 (start 0x8C22FFFC [(1, 0x80000204)])) (x 2) = some 0x80818283 := by
  decide

/-- L14. -/
theorem test_lw_mmio : look (start 0x8C220004 [(1, 0xA4300000)]) (x 2) = some 0x02020102 := by decide

/-- L15. -/
theorem test_lbu_mmio : look (start 0x90220005 [(1, 0xA4300000)]) (x 2) = some 0x00000002 := by decide

/-- L18. -/
theorem test_sb :
    look (withWord200 0x80818283 (start 0xA0220001 [(1, 0x80000200), (2, 0x123456AA)])) (fun t => t.ram.readWide 0x200 .word) = some 0x80AA8283 := by
  decide

/-- L20. -/
theorem test_sh :
    look (withWord200 0x80818283 (start 0xA4220002 [(1, 0x80000200), (2, 0x1234BEEF)])) (fun t => t.ram.readWide 0x200 .word) = some 0x8081BEEF := by
  decide

/-- L22. -/
theorem test_sw :
    look (withWord200 0x80818283 (start 0xAC220000 [(1, 0x80000200), (2, 0x11223344)])) (fun t => t.ram.readWide 0x200 .word) = some 0x11223344 := by
  decide

/-- L21. -/
theorem test_sw_misaligned :
    look (withWord200 0x80818283 (start 0xAC220001 [(1, 0x80000200), (2, 0x11223344)])) (fun t => (t.ram.readWide 0x200 .word, t.cp0.badVAddr, cop0Read t 13)) = some (0x80818283, 0x80000201, 0x00000014) := by
  decide

/-- L26. -/
theorem test_lw_tlb_refill :
    look (withParams tlbParams ((start 0x8C220000 [(1, 0x0ABCD000)]).setCp0 { Cop0.atReset with context := 0x00123450 })) (fun t => (entry t, t.cp0.badVAddr, t.cp0.context)) = some ((0x00000008, 0x80000100, 0x80000000), 0x0ABCD000, 0x0A923450) := by
  decide

/-- L27. -/
theorem test_sw_tlb_modified :
    look (withParams tlbParams (start 0xAC220000 [(1, 0x00001004)])) (fun t => (entry t, t.cp0.badVAddr)) = some ((0x00000004, 0x80000100, 0x80000180), 0x00001004) := by
  decide

/-- L28. -/
theorem test_sw_tlb_invalid :
    look (withParams tlbParams (start 0xAC220000 [(1, 0x00002008)])) (fun t => (entry t, t.cp0.badVAddr)) = some ((0x0000000C, 0x80000100, 0x80000180), 0x00002008) := by
  decide

/-- L29. -/
theorem test_sw_tlb_hit :
    look (withParams tlbParams (start 0xAC220000 [(1, 0x00000010), (2, 0xDEADBEEF)])) (fun t => t.ram.readWide 0x2010 .word) = some 0xDEADBEEF := by
  decide

/-- L23. -/
theorem test_sb_mmio_ignored :
    look ((start 0xA0220007 [(1, 0xA4400000), (2, 0x000000FF)]).setDev { Devices.atReset with vi := { origin := 0x1234, width := 0 } }) (fun t => t.dev.vi.origin) = some 0x1234 := by
  decide

/-- L24. -/
theorem test_sw_mask :
    look (start 0xAC22000C [(1, 0xA4300000), (2, 0x00000008)]) (fun t => t.dev.mi.mask) = some 0x08 := by
  decide

/-- S1v. -/
theorem test_syscall : look (start 0x0000000C []) entry = some (0x00000020, 0x80000100, 0x80000180) := by decide

/-- S2v. -/
theorem test_break : look (start 0x0000000D []) entry = some (0x00000024, 0x80000100, 0x80000180) := by decide

/-- S3v. -/
theorem test_teq_traps :
    look (start 0x00220034 [(1, 0x00000005), (2, 0x00000005)]) entry = some (0x00000034, 0x80000100, 0x80000180) := by
  decide

/-- S4v. -/
theorem test_teq_does_not :
    look (start 0x00220034 [(1, 0x00000005), (2, 0x00000006)]) (fun t => t.pc) = some 0x80000104 := by
  decide

/-- S5v. -/
theorem test_tge :
    look (start 0x00220030 [(1, 0x00000000), (2, 0xFFFFFFFF)]) entry = some (0x00000034, 0x80000100, 0x80000180) := by
  decide

/-- S6v. -/
theorem test_tgeu :
    look (start 0x00220031 [(1, 0x00000000), (2, 0xFFFFFFFF)]) (fun t => (t.pc, t.cp0.status)) = some (0x80000104, 0) := by
  decide

/-- S7v. -/
theorem test_tlt :
    look (start 0x00220032 [(1, 0xFFFFFFFF), (2, 0x00000000)]) entry = some (0x00000034, 0x80000100, 0x80000180) := by
  decide

/-- S8v. -/
theorem test_tltu :
    look (start 0x00220033 [(1, 0xFFFFFFFF), (2, 0x00000000)]) (fun t => (t.pc, t.cp0.status)) = some (0x80000104, 0) := by
  decide

/-- S9v. -/
theorem test_tne :
    look (start 0x00220036 [(1, 0x00000005), (2, 0x00000006)]) entry = some (0x00000034, 0x80000100, 0x80000180) := by
  decide

/-- S10v. -/
theorem test_tgei :
    look (start 0x0428FFFF [(1, 0xFFFFFFFF)]) entry = some (0x00000034, 0x80000100, 0x80000180) := by
  decide

/-- S11v. -/
theorem test_tgeiu :
    look (start 0x04298000 [(1, 0x00010000)]) (fun t => (t.pc, t.cp0.status)) = some (0x80000104, 0) := by
  decide

/-- S12v. -/
theorem test_tlti :
    look (start 0x042AFFFF [(1, 0xFFFFFFFE)]) entry = some (0x00000034, 0x80000100, 0x80000180) := by
  decide

/-- S13v. -/
theorem test_tltiu :
    look (start 0x042B8000 [(1, 0x00010000)]) entry = some (0x00000034, 0x80000100, 0x80000180) := by
  decide

/-- S14v. -/
theorem test_teqi :
    look (start 0x042CFFFF [(1, 0xFFFFFFFF)]) entry = some (0x00000034, 0x80000100, 0x80000180) := by
  decide

/-- S15v. -/
theorem test_tnei :
    look (start 0x042EFFFF [(1, 0x0000FFFF)]) entry = some (0x00000034, 0x80000100, 0x80000180) := by
  decide

/-- S16v. -/
theorem test_mtc0_status : look (start 0x40816000 [(1, 0x00000401)]) (fun t => t.cp0.status) = some 0x401 := by decide

/-- S18v. -/
theorem test_mtc0_cause : look (start 0x40816800 [(1, 0xFFFFFFFF)]) (fun t => cop0Read t 13) = some 0x300 := by decide

/-- S19v. -/
theorem test_mtc0_context :
    look (start 0x40812000 [(1, 0xFFFFFFFF)]) (fun t => t.cp0.context) = some 0x007FFFF0 := by
  decide

/-- S21v. -/
theorem test_mtc0_count_then_tick :
    look (start 0x40814800 [(1, 0x00000005)]) (fun t => t.cp0.count) = some 6 := by
  decide

/-- S17v. -/
theorem test_mfc0_cause :
    look ((start 0x40026800 []).setCp0 { Cop0.atReset with excCode := 8, swIP := 1 }) (x 2) = some 0x120 := by
  decide

/-- S23v. -/
theorem test_eret :
    look ((start 0x42000018 []).setCp0 { Cop0.atReset with epc := 0x80000204, status := 3 }) (fun t => (t.pc, t.cp0.status)) = some (0x80000204, 1) := by
  decide

/-- S24v. -/
theorem test_sync : look (start 0x0000000F []) (fun t => (t.pc, t.cp0.status)) = some (0x80000104, 0) := by decide

/-- S25v. -/
theorem test_cache : look (start 0xBC000000 []) (fun t => (t.pc, t.cp0.status)) = some (0x80000104, 0) := by decide

/-- S26v, S27v. -/
theorem test_tlbr : refusal (start 0x42000001 []) = some .tlbOpBehaviour := by decide

/-- S26v, S27v. -/
theorem test_tlbwi : refusal (start 0x42000002 []) = some .tlbOpBehaviour := by decide

/-- S26v, S27v. -/
theorem test_tlbwr : refusal (start 0x42000006 []) = some .tlbOpBehaviour := by decide

/-- S26v, S27v. -/
theorem test_tlbp : refusal (start 0x42000008 []) = some .tlbOpBehaviour := by decide

/-- S28v. -/
theorem test_special2_reserved :
    look (start 0x70000002 []) entry = some (0x00000028, 0x80000100, 0x80000180) := by
  decide

/-- S30v. -/
theorem test_wait_reserved : look (start 0x42000020 []) entry = some (0x00000028, 0x80000100, 0x80000180) := by decide

/-- S33v. -/
theorem test_special_01_reserved :
    look (start 0x00000001 []) entry = some (0x00000028, 0x80000100, 0x80000180) := by
  decide

/-- R168. -/
theorem test_unlisted_reserved :
    look (start 0x74000000 []) entry = some (0x00000028, 0x80000100, 0x80000180) := by
  decide

/-- S31v. -/
theorem test_cop1_unusable : look (start 0x46000000 []) entry = some (0x0000002C, 0x80000100, 0x80000180) := by decide

/-- S32v. -/
theorem test_lwc1_unusable : look (start 0xC4000000 []) entry = some (0x0000002C, 0x80000100, 0x80000180) := by decide

/-! ### 95_test_vectors.md section 3: exceptions, interrupts, timer, MI and devices; section 1: scenarios -/

/-- A start state with some COP0 registers set. -/
def startCop0 (c : Cop0) (w : Nat) : State := (start w []).setCp0 c

/-- Word stores by the host, in order. -/
def stores (l : List (Word × Word)) (s : State) : State := l.foldl (fun t p => (HostOp.store .word p.1 p.2).apply t) s

/-- X1. -/
theorem test_interrupt_taken :
    look (startCop0 { Cop0.atReset with status := 0x101, swIP := 1 } 0) (fun t => (entry t, t.cp0.status)) = some ((0x100, 0x80000100, 0x80000180), 0x103) := by
  decide

/-- X2, X3, X4. -/
theorem test_interrupt_needs_ie_exl_im :
    look (startCop0 { Cop0.atReset with status := 0x100, swIP := 1 } 0) (fun t => t.pc) = some 0x80000104 ∧
    look (startCop0 { Cop0.atReset with status := 0x103, swIP := 1 } 0) (fun t => t.pc) = some 0x80000104 ∧
    look (startCop0 { Cop0.atReset with status := 0x001, swIP := 1 } 0) (fun t => t.pc) = some 0x80000104 := by
  decide

/-- X6. -/
theorem test_interrupt_before_delay_slot :
    look ((((start 0x10000004 []).setCp0 { Cop0.atReset with status := 0x401 }).setDev { Devices.atReset with mi := { pending := 8, mask := 8 } }).setPend { target := 0x80000114, valid := true } |>.setPc 0x80000104) entry = some (0x80000400, 0x80000100, 0x80000180) := by
  decide

/-- X7. -/
theorem test_entry_under_exl :
    look (startCop0 { Cop0.atReset with status := 2, epc := 0x80000500, excCode := 4, bd := true } 0x0C) entry = some (0x80000010, 0x80000500, 0x80000180) := by
  decide

/-- X8. -/
theorem test_badvaddr_under_exl :
    look (withRegs [(1, 1)] (startCop0 { Cop0.atReset with status := 2, epc := 0x80000500, excCode := 8 } 0x8C220000)) (fun t => (entry t, t.cp0.badVAddr)) = some ((0x20, 0x80000500, 0x80000180), 1) := by
  decide

/-- X9. -/
theorem test_bev_vector :
    look (startCop0 { Cop0.atReset with status := 0x00400000 } 0x0D) entry = some (0x24, 0x80000100, 0xBFC00180) := by
  decide

/-- X11. -/
theorem test_fetch_refill :
    look (withParams tlbParams (hostSetPc State.reset 0x5000)) (fun t => (entry t, t.cp0.badVAddr)) = some ((0x8, 0x5000, 0x80000000), 0x5000) := by
  decide

/-- X12. -/
theorem test_fetch_refill_under_exl :
    look (withParams tlbParams ((hostSetPc State.reset 0x5000).setCp0 { Cop0.atReset with status := 2 })) (fun t => (entry t, t.cp0.badVAddr)) = some ((0, 0, 0x80000180), 0x5000) := by
  decide

/-- X14. -/
theorem test_fetch_misaligned :
    look (hostSetPc State.reset 0x80000202) (fun t => (entry t, t.cp0.badVAddr)) = some ((0x10, 0x80000202, 0x80000180), 0x80000202) := by
  decide

/-- S1. -/
theorem test_delay_slot_fault :
    look ((((start 0 []).setPend { target := 0x80000114, valid := true }).setPc 0x80000104).setRam [(0x104, 0x8C), (0x105, 0x02), (0x107, 0x02)]) (fun t => (entry t, t.cp0.badVAddr, t.pend.valid)) = some ((0x80000010, 0x80000100, 0x80000180), 2, false) := by
  decide

/-- B25. -/
theorem test_branch_in_delay_slot :
    refusal (((start 0x10000004 []).setPend { target := 0x80000110, valid := true })) = some .delaySlotControl := by
  decide

/-- R114. -/
theorem test_load_modified_refused :
    refusal (withParams badParams (start 0x8C020000 [])) = some .tlbLookupModifiedOnRead := by
  decide

/-- R77. -/
theorem test_refused_machine_stops : refusal (refuse (start 0 [])) = some .alreadyRefused := by decide

/-- T1. -/
theorem test_timer_sets_ip7 :
    look (startCop0 { Cop0.atReset with compare := 2, count := 1 } 0) (fun t => (t.cp0.count, t.cp0.ip7)) = some (2, true) := by
  decide

/-- T2. -/
theorem test_timer_wraps :
    look (startCop0 { Cop0.atReset with count := 0xFFFFFFFF } 0) (fun t => (t.cp0.count, t.cp0.ip7)) = some (0, true) := by
  decide

/-- T4. -/
theorem test_compare_write_clears_ip7 :
    (cop0Write (State.reset.setCp0 { Cop0.atReset with ip7 := true }) 11 2).cp0.ip7 = false := by
  decide

/-- M5. -/
theorem test_mask_write :
    (stores [(0xA430000C, 0x00010020)] (State.reset.setDev { Devices.atReset with mi := { pending := 0, mask := 9 } })).dev.mi.mask = 0x28 := by
  decide

/-- M6, M7. -/
theorem test_mi_mode_and_intr :
    (stores [(0xA4300000, 8), (0xA4300008, 0xFF)] (applyAll [.viVblank, .dpRaiseInterrupt] State.reset)).dev =
      { Devices.atReset with mi := { pending := 0x20, mask := 0 }, dp := { busy := true, pipeBusy := true } } := by
  decide

/-- M9, M10. -/
theorem test_dp_raise_and_ack :
    (hostLoad (applyAll [.dpRaiseInterrupt] State.reset) 0xA410000C .word).1 = some 0x60 ∧
    stores [(0xA410000C, 0x40)] (applyAll [.dpRaiseInterrupt] State.reset) = State.reset := by
  decide

/-- Registers and bits at the offsets and positions a construction gives (R128; 93_implementation_defined.md P17). -/
theorem test_moved_layout :
    let s := stores [(0xA43FFFFC, 8), (0xA430000C, 1)] (applyAll [.dpRaiseInterrupt] (withParams movedParams State.reset))
    s.dev.mi.mask = 8 ∧ (hostLoad s 0xA4300024 .word).1 = some 0x02020102 ∧ (hostLoad s 0xA4300004 .word).1 = some 0 ∧
      (hostLoad s 0xA4100000 .word).1 = some 0x80000001 ∧
      (stores [(0xA4100000, 0x20)] s).dev.mi.pending = 0 ∧ (stores [(0xA4100000, 0x40)] s).dev.mi.pending = 0x20 := by
  decide

/-- A misaligned host load in a callback refuses, and the run ends before the cycle's step (R132; D64). -/
theorem test_misaligned_load_in_callback :
    let s := stepCycles 2 (applyAll [.scheduleAt 1 (.andThen (.load .half 0x80000001) (.andThen .viVblank .done))] (start 0 []))
    s.refused = true ∧ s.pc = 0x80000100 ∧ s.dev.mi.pending = 0 ∧ s.sched.cycle = 1 := by
  decide

/-- S5, M14. -/
theorem test_sp_kick_and_acks :
    (applyAll [.spKick, .store .word 0xA4040010 8] State.reset).dev.mi.pending = 0x20 ∧
    (applyAll [.spKick, .store .word 0xA4040010 8, .store .word 0xA4040010 8] State.reset).dev.mi.pending = 0x20 ∧
    (applyAll [.spKick, .store .word 0xA4040010 8, .store .word 0xA410000C 0x40] State.reset).dev.mi.pending = 0 := by
  decide

/-- M12. -/
theorem test_pi_status_io_bit :
    (stores [(0xA4600008, 0), (0xA4600010, 2)] State.reset).dev.pi =
      { dramAddr := 0, cartAddr := 0, rdLen := 0, wrLen := 0, len := 0, dmaBusy := true, ioBusy := false } := by
  decide

/-- S3, on 4 bytes of ROM. -/
theorem test_pi_dma :
    let s := applyAll [.setRom [0xB0, 0xB1], .pokeRam 0x103 0xEE, .store .word 0xA4600000 0x100, .store .word 0xA4600004 1, .store .word 0xA460000C 2, .piCompleteDma] State.reset
    s.ram = [(0x100, 0xB1), (0x103, 0xEE)] ∧ s.dev.mi.pending = 0x10 ∧ (hostLoad s 0xA4600010 .word).1 = some 0 := by
  decide

/-- S4. -/
theorem test_coalescing :
    let s := stepCycles 2 (applyAll [.store .word 0xA430000C 0x28, .cop0Write 12 0x401, .scheduleAt 2 (.andThen .viVblank .done), .scheduleAt 2 (.andThen .viVblank .done), .scheduleAt 2 (.andThen .dpRaiseInterrupt .done)] (start 0 []))
    entry s = (0x400, 0x80000104, 0x80000180) ∧ s.dev.mi.pending = 0x28 ∧ s.sched = { cycle := 2, events := [] } := by
  decide


/-! ### A witness for the hypotheses of each claim of Certificates/Slice0/Obligations.lean that has any, clause by clause
and at the edges of the ranges -/

/-- A step that can be looked at answers a next state. -/
theorem steps_of_look {s : State} (h : (look s fun _ => ()) = some ()) : ∃ t, step s = .next t := by
  unfold look at h
  split at h
  · exact ⟨_, by assumption⟩
  · cases h
  · cases h

/-- A step whose observation is `a` answers a next state that is observed so. -/
theorem steps_to {α : Type} {s : State} {f : State → α} {a : α} (h : look s f = some a) :
    ∃ t, step s = .next t ∧ f t = a := by
  unfold look at h
  split at h
  · exact ⟨_, by assumption, Option.some.inj h⟩
  · cases h
  · cases h

/-- Whether an instruction answers a next state. -/
def runs (i : Instr) (s : State) : Bool :=
  match exec i s with
  | .next _ => true
  | .fault _ => false
  | .refused _ => false

theorem next_of_runs {i : Instr} {s : State} (h : runs i s = true) : ∃ t, exec i s = .next t := by
  unfold runs at h
  split at h
  · exact ⟨_, by assumption⟩
  · cases h
  · cases h

/-- SW x2, 0x200(x1) with x1 = 0x8000_0000 and x2 = 5. -/
def storing : State := start 0xAC220200 [(1, 0x80000000), (2, 5)]

theorem test_witness_StepKeepsInvariant : Inv storing ∧ ∃ t, step storing = .next t :=
  ⟨⟨by decide, by decide, by decide, by decide, by decide, by decide, by decide, by decide, by decide, by decide⟩,
    steps_of_look (by decide)⟩

/-- A machine with an event at cycle 2. -/
def scheduled : State := applyAll [.scheduleAt 2 (.andThen .viVblank .done)] (start 0 [])

theorem test_witness_CyclesKeepInvariant : Inv scheduled ∧ (stepCycles 2 scheduled).refused = false :=
  ⟨⟨by decide, by decide, by decide, by decide, by decide, by decide, by decide, by decide, by decide, by decide⟩,
    by decide⟩

/-- An unlisted reserved word selects no row of class insn or cpu. -/
theorem noRow_74000000 (i : Instr) : i.row.cls ≠ .reserved → ¬i.row.selects 0x74000000 := by
  cases i <;> simp only [Instr.row, Row.selects] <;> decide

/-- Nor does a word of a reserved row. -/
theorem noRow_50000000 (i : Instr) : i.row.cls ≠ .reserved → ¬i.row.selects 0x50000000 := by
  cases i <;> simp only [Instr.row, Row.selects] <;> decide

theorem test_witness_DecodeMatchesTable :
    decode 0x00221821 = .instr (.addu 3 1 2) ∧ (Instr.addu 3 1 2).row.selects 0x00221821 ∧
    ∀ i : Instr, i.row.cls ≠ .reserved → ¬i.row.selects 0x74000000 := by
  exact ⟨by decide, by unfold Row.selects; decide, noRow_74000000⟩

/-- The word stands at the last address of RAM. -/
def atRamEnd : State := (hostSetPc State.reset 0x803FFFFC).withFetchWord 32 0x00221821

theorem test_witness_StepRunsDecodedInstruction :
    (atRamEnd.refused = false ∧ interruptTaken atRamEnd = false ∧ atRamEnd.pc.toNat % 4 = 0 ∧
      translateAddress atRamEnd.params atRamEnd.pc .fetch = .ok 0x003FFFFC ∧ 0x003FFFFC < atRamEnd.params.ramSize ∧
      decodeBytes [atRamEnd.ram.read 0x3FFFFC, atRamEnd.ram.read 0x3FFFFD, atRamEnd.ram.read 0x3FFFFE,
        atRamEnd.ram.read 0x3FFFFF] = (.instr (.addu 3 1 2), [])) ∧ runs (.addu 3 1 2) atRamEnd = true ∧
    exec .tlbr atRamEnd = .refused .tlbOpBehaviour ∧
    fetch (start 0x74000000 []) = .ok 0x74000000 ∧ decode 0x74000000 = .reject (.reservedOpcode 0x1D) :=
  ⟨by decide, by decide, rfl, by decide, by decide⟩

theorem test_witness_OverflowArithmetic :
    let s := start 0 [(1, 0x7FFFFFFF), (2, 1), (3, 0x80000000)]
    let v := fun r => (readReg s r).toInt
    (Fits (v 1 + v 0) ∧ ¬Fits (v 1 + v 2)) ∧ (Fits (v 3 - v 0) ∧ ¬Fits (v 3 - v 2)) ∧
      (Fits (v 3 + (0#16).toInt) ∧ ¬Fits (v 3 + (0xFFFF#16).toInt)) := by
  unfold Fits
  decide

theorem test_witness_Divide :
    readReg (start 0 [(1, 0x80000000), (2, 0xFFFFFFFF)]) 2 ≠ 0 ∧ readReg (start 0 [(1, 7)]) 2 = 0 := by
  decide

theorem test_witness_LoadRules :
    ((0x80000001#32).toNat % Width.half.bytes ≠ 0 ∧ (0x80000002#32).toNat % Width.word.bytes ≠ 0) ∧
    ((0x803FFFFC#32).toNat % Width.word.bytes = 0 ∧
      translateAddress Params.atReset 0x803FFFFC .load = .ok 0x003FFFFC) ∧
    translateAddress tlbParams 0x3000 .load = .raise (.tlbLoad 0x3000 true) ∧
    translateAddress tlbParams 0x2FFF .load = .raise (.tlbLoad 0x2FFF false) ∧
    translateAddress badParams 0xFFC .load = .refuse .tlbLookupModifiedOnRead := by
  decide

theorem test_witness_StoreRules :
    storing.ram.wf ∧ ((0x80000003#32).toNat % Width.half.bytes ≠ 0 ∧ (0x803FFFFC#32).toNat % Width.word.bytes = 0) ∧
    translateAddress Params.atReset 0x803FFFFC .store = .ok 0x003FFFFC ∧
    translateAddress tlbParams 0x1000 .store = .raise (.tlbModified 0x1000) ∧
    translateAddress tlbParams 0x3000 .store = .raise (.tlbStore 0x3000 true) := by
  decide

theorem test_witness_BusReads :
    let p := State.reset.params
    let l := p.layout
    ((0x003FFFFF#32).toNat < p.ramSize ∧ storing.ram.wf) ∧
    (route p 0x04300004 = .mmio .mi 4 ∧ mmioReg l .mi 4 = some .miVersion) ∧
    (route p 0x04300010 = .mmio .mi 16 ∧ mmioReg l .mi 16 = none) ∧
    (route p 0x04300006 = .mmio .mi 6 ∧ 6 % 2 = 0 ∧ mmioReg l .mi (6 - 6 % 4) = some .miVersion) ∧
    (route p 0x04300013 = .mmio .mi 19 ∧ mmioReg l .mi (19 - 19 % 4) = none) ∧
    (route p 0x04200000 = .outOfRange ∧ route p 0x00400000 = .outOfRange) := by
  decide

theorem test_witness_Routing :
    ((0x003FFFFF#32).toNat < 0x400000 ∧ 0x400000 ≤ (0x00400000#32).toNat) ∧
    ((0x04000000#32).toNat / 0x100000 = 0x40 ∧ (0x040FFFFF#32).toNat / 0x100000 = 0x40) ∧
    ((0x04200000#32).toNat / 0x100000 = 0x42 ∧ (0x047FFFFF#32).toNat / 0x100000 = 0x47) ∧
    ((0x048FFFFF#32).toNat / 0x100000 = 0x48 ∧ 0x04900000 ≤ (0x04900000#32).toNat) ∧
    (0x03FFFFFF#32).toNat < 0x04000000 := by
  decide

theorem test_witness_Translation :
    ((0x80000000#32).toNat / 0x20000000 = 4 ∧ (0x9FFFFFFF#32).toNat / 0x20000000 = 4) ∧
    ((0xA0000000#32).toNat / 0x20000000 = 5 ∧ (0xBFFFFFFF#32).toNat / 0x20000000 = 5) ∧
    (0xC0000000 ≤ (0xC0000000#32).toNat ∧ Params.atReset.ramSize ≤ 0x04000000) ∧
    ((0x7FFFFFFF#32).toNat < 0x80000000 ∧ Params.atReset.tlbMode = false ∧ tlbParams.tlbMode = true) ∧
    tlbLookup tlbParams 0xFFF .load = .hit 0x2FFF ∧ tlbLookup tlbParams 0x7FFFFFFF .load = .refill ∧
    tlbLookup tlbParams 0x2000 .load = .invalid ∧ tlbLookup tlbParams 0x1FFF .store = .modified ∧
    tlbLookup badParams 0 .load = .modified := by
  decide

theorem test_witness_SegmentAlias :
    (0x80000000 ≤ (0x80000000#32).toNat ∧ (0x80000000#32).toNat < 0xA0000000 ∧
      (0x80000000#32).toNat % Width.word.bytes = 0) ∧
    (0x80000000 ≤ (0x9FFFFFFF#32).toNat ∧ (0x9FFFFFFF#32).toNat < 0xA0000000 ∧
      (0x9FFFFFFF#32).toNat % Width.half.bytes ≠ 0) := by
  decide

/-- SW x2, 0(x1) with x1 at the last word of RAM. -/
theorem test_witness_StoreThenLoad :
    let s := start 0 [(1, 0x803FFFFC), (2, 0x11223344)]
    (s.ram.wf ∧ (readReg s 1 + (0#16).signExtend 32).toNat % 4 = 0 ∧
      translateAddress s.params (readReg s 1 + (0#16).signExtend 32) .store = .ok 0x003FFFFC ∧
      translateAddress s.params (readReg s 1 + (0#16).signExtend 32) .load = .ok 0x003FFFFC ∧
      (0x003FFFFC#32).toNat % 4 = 0 ∧ (0x003FFFFC#32).toNat + 4 ≤ s.params.ramSize) ∧
    ∃ t, exec (.sw 2 0 1) s = .next t :=
  ⟨by decide, next_of_runs (by decide)⟩

/-- SW over the instruction after it, and, in a delay slot, over the branch target. -/
theorem test_witness_StoreThenFetch :
    let s := start 0 [(1, 0x80000104), (2, 0x24020001)]
    let d := (start 0 [(1, 0x80000200), (2, 0x24020001)]).setPend { target := 0x80000200, valid := true }
    (s.ram.wf ∧ translateAddress s.params (readReg s 1 + (0#16).signExtend 32) .store = .ok 0x104 ∧
      (0x104#32).toNat < s.params.ramSize ∧ translateAddress s.params (s.pc + 4) .fetch = .ok 0x104) ∧
    (d.ram.wf ∧ translateAddress d.params (readReg d 1 + (0#16).signExtend 32) .store = .ok 0x200 ∧
      translateAddress d.params d.pend.target .fetch = .ok 0x200) ∧
    (match exec (.sw 2 0 1) s with | .next t => t.pc == 0x80000104 | _ => false) = true ∧
    (match exec (.sw 2 0 1) d with | .next t => t.pc == 0x80000200 | _ => false) = true := by
  decide

/-- ConditionalBranches, JumpsAndLinks and ReturnFromException outside a delay slot; ReturnFromException in one. -/
theorem test_witness_branch_slot :
    (start 0 []).pend.valid = false ∧ ((start 0 []).setPend { target := 4, valid := true }).pend.valid = true := by
  decide

theorem test_witness_ControlInDelaySlot :
    let d := (start 0 []).setPend { target := 4, valid := true }
    ControlTransfer (.jr 1) ∧ d.pend.valid = true ∧ (start 0 []).pend.valid = false ∧
      exec .eret d = .refused .delaySlotControl :=
  ⟨.jr 1, by decide, by decide, rfl⟩

theorem test_witness_ConditionalTraps :
    let a := readReg (start 0 [(1, 0x80000000), (2, 0x7FFFFFFF)]) 1
    let b := readReg (start 0 [(1, 0x80000000), (2, 0x7FFFFFFF)]) 2
    (a.toInt < b.toInt ∧ ¬b.toInt ≤ a.toInt) ∧ (b.toNat ≤ a.toNat ∧ ¬a.toNat < b.toNat) ∧ (a ≠ b ∧ a = a) := by
  decide

theorem test_witness_MoveFromCop0 : (1 : BitVec 5) ∉ ([0, 4, 8, 9, 11, 12, 13, 14] : List (BitVec 5)) ∧
    (31 : BitVec 5) ∉ ([0, 4, 8, 9, 11, 12, 13, 14] : List (BitVec 5)) := by
  decide

/-- An unlisted reserved word, and a word of a reserved row. -/
theorem test_witness_ReservedWords :
    Instr.beql ∈ reservedRows ∧ Instr.wait ∈ reservedRows ∧
    (∀ i : Instr, i.row.cls ≠ .reserved → ¬i.row.selects 0x74000000) ∧
    ∀ i : Instr, i.row.cls ≠ .reserved → ¬i.row.selects 0x50000000 := by
  exact ⟨by decide, by decide, noRow_74000000, noRow_50000000⟩

theorem test_witness_CoprocessorWords :
    (0x11, Instr.cop1) ∈ coprocessorRows ∧ (0x3E, Instr.sdc2) ∈ coprocessorRows := by
  decide

/-- ExceptionEntry's clause on EXL; EntryThenReturn. -/
theorem test_witness_ExceptionEntry :
    (startCop0 { Cop0.atReset with status := 2 } 0).cp0.status.getLsbD 1 = true ∧
    (start 0 []).cp0.status.getLsbD 1 = false := by
  decide

/-- A software interrupt, and the line of VI, the latter before a delay slot. -/
def interrupted : State := startCop0 { Cop0.atReset with status := 0x101, swIP := 1 } 0

theorem test_witness_InterruptStep :
    interrupted.refused = false ∧ interruptTaken interrupted = true ∧ selectedSource interrupted = some 0 := by
  decide

theorem test_witness_FetchFaults :
    let s := hostSetPc State.reset 0x80000102
    let d := (withParams tlbParams (hostSetPc State.reset 0x5000)).setPend { target := 0, valid := true }
    (s.refused = false ∧ interruptTaken s = false ∧ s.pc.toNat % 4 ≠ 0) ∧
    (d.refused = false ∧ interruptTaken d = false ∧ d.pc.toNat % 4 = 0 ∧
      translateAddress d.params d.pc .fetch = .raise (.tlbLoad 0x5000 true)) := by
  decide

theorem test_witness_CountTick :
    let s := State.reset
    let d := withParams { Params.atReset with countDivisor := 3 } State.reset
    (s.cp0.countPhase + 1 = s.params.countDivisor ∧ s.cp0.countPhase < s.params.countDivisor) ∧
    (d.cp0.countPhase + 1 ≠ d.params.countDivisor ∧ d.cp0.countPhase < d.params.countDivisor) := by
  decide

/-- MTC0 x0, Compare clears IP7; a tick sets it. -/
theorem test_witness_TimerLatch :
    (∃ t, step (startCop0 { Cop0.atReset with ip7 := true, count := 5 } 0x40805800) = .next t ∧ t.cp0.ip7 = false) ∧
    ∃ t, step (startCop0 { Cop0.atReset with compare := 1 } 0) = .next t ∧ t.cp0.ip7 = true :=
  ⟨steps_to (f := fun t => t.cp0.ip7) (by decide), steps_to (f := fun t => t.cp0.ip7) (by decide)⟩

/-- LW x2, 1(x0). -/
theorem test_witness_BadVAddrWriters :
    ∃ t, step (start 0x8C020001 []) = .next t ∧ t.cp0.badVAddr ≠ (start 0x8C020001 []).cp0.badVAddr := by
  obtain ⟨t, h, e⟩ := steps_to (s := start 0x8C020001 []) (f := fun t => t.cp0.badVAddr) (a := 1) (by decide)
  exact ⟨t, h, by rw [e]; decide⟩

/-- MTHI x1. -/
theorem test_witness_HiLoWriters :
    ∃ t, step (start 0x00200011 [(1, 9)]) = .next t ∧ ¬SameHiLo (start 0x00200011 [(1, 9)]) t := by
  obtain ⟨t, h, e⟩ := steps_to (s := start 0x00200011 [(1, 9)]) (f := State.hi) (a := 9) (by decide)
  exact ⟨t, h, fun c => absurd (e.symm.trans c.1) (by decide)⟩

/-- MTC0 x1, Status sets IE; ERET clears EXL. -/
theorem test_witness_StatusWriters :
    (∃ t, step (start 0x40816000 [(1, 1)]) = .next t ∧ t.cp0.status.getLsbD 0 = true) ∧
    (start 0x40816000 [(1, 1)]).cp0.status.getLsbD 0 = false ∧
    ∃ t, step (startCop0 { Cop0.atReset with status := 2 } 0x42000018) = .next t ∧ t.cp0.status.getLsbD 1 = false :=
  ⟨steps_to (f := fun t => t.cp0.status.getLsbD 0) (by decide), by decide,
    steps_to (f := fun t => t.cp0.status.getLsbD 1) (by decide)⟩

theorem test_witness_OneRegisterWritten : ∃ t, step (start 0x00221821 []) = .next t := steps_of_look (by decide)

/-- Each way a step is refused. -/
theorem test_witness_StepRefusals :
    refusal (refuse State.reset) = some .alreadyRefused ∧
    refusal ((start 0x03E00008 []).setPend { target := 4, valid := true }) = some .delaySlotControl ∧
    refusal (start 0x42000001 []) = some .tlbOpBehaviour ∧
    refusal (withParams badParams (start 0x8C020000 [])) = some .tlbLookupModifiedOnRead := by
  decide

/-- DIV x1, x0 draws. -/
theorem test_witness_StepLeavesHostState :
    ∃ t, step (start 0x0020001A []) = .next t ∧ t.draws ≠ (start 0x0020001A []).draws := by
  obtain ⟨t, h, e⟩ := steps_to (s := start 0x0020001A []) (f := fun t => decide (t.draws = 0)) (a := false) (by decide)
  exact ⟨t, h, of_decide_eq_false e⟩

/-- MaskWrite and the device claims: legal parameters, with the default layout and with another; mask writes with and
without a conflict. -/
theorem test_witness_MaskWrite :
    State.reset.params.wellFormed = true ∧ Params.wellFormed { Params.atReset with ramSize := 0x04000000 } = true ∧
    movedParams.wellFormed = true ∧
    (∃ i < 16, (0x80008000#32).getLsbD i = true ∧ (0x80008000#32).getLsbD (16 + i) = true) ∧
    ∀ i < 16, (0x00010020#32).getLsbD i = false ∨ (0x00010020#32).getLsbD (16 + i) = false := by
  decide

/-- Acknowledge, RegisterWrites: values that meet each premise in the default layout. -/
theorem test_witness_Acknowledge :
    let l := State.reset.params.layout
    ((8#32).getLsbD l.sp.ackBit = true ∧ (8#32).getLsbD l.sp.startBit = false) ∧ (0x40#32).getLsbD l.dp.ackBit = true ∧
    ((1#32).getLsbD l.vi.ackBit = true ∧ (1#32).getLsbD l.si.ackBit = true ∧ (1#32).getLsbD l.pi.dmaBusyBit = true ∧
      (1#32).getLsbD l.sp.startBit = true) ∧ (0x40000000#32).getLsbD l.ai.ackBit = true ∧
    ((2#32).getLsbD l.pi.dmaBusyBit = false ∧ (2#32).getLsbD l.pi.ioBusyBit = true) ∧
    ((0#32).getLsbD l.sp.ackBit = false ∧ (0#32).getLsbD l.sp.startBit = false ∧ (0#32).getLsbD l.dp.ackBit = false ∧
      (0#32).getLsbD l.vi.ackBit = false ∧ (0#32).getLsbD l.ai.ackBit = false ∧ (0#32).getLsbD l.si.ackBit = false ∧
      (0#32).getLsbD l.pi.dmaBusyBit = false ∧ (0#32).getLsbD l.pi.ioBusyBit = false) ∧
    State.reset.refused = false ∧ State.reset.params.wellFormed = true := by
  decide

/-- The first and the last word of a window without a register, in the default layout. -/
theorem test_witness_RegisterReads :
    let p := State.reset.params
    p.wellFormed = true ∧ (route p 0x04000000 = .mmio .sp 0 ∧ ∀ r, registerAddress p.layout r ≠ 0x04000000) ∧
    route p 0x048FFFFC = .mmio .si 0xFFFFC ∧ ∀ r, registerAddress p.layout r ≠ 0x048FFFFC := by
  refine ⟨by decide, ⟨by decide, fun r => ?_⟩, by decide, fun r => ?_⟩ <;> cases r <;> decide

/-- RaiseAndClear: the machine has not refused. -/
theorem test_witness_not_refused : State.reset.refused = false := rfl

/-- A transfer that runs past both ends. -/
theorem test_witness_PiDma :
    let s := applyAll [.setRom [1], .store .word 0xA4600000 0x003FFFFF, .store .word 0xA460000C 7] State.reset
    (s.refused = false ∧ s.ram.wf ∧ s.dev.pi.dmaBusy = true) ∧ State.reset.dev.pi.dmaBusy = false := by
  decide

/-- The transfer's first address is the last of RAM. -/
theorem test_witness_SiKicks :
    let s := applyAll [.pokeRam 0x3FFFFF 7, .store .word 0xA4800000 0x003FFFFF, .siKickWrite64B] State.reset
    s.refused = false ∧ s.ram.wf ∧ s.dev.si.pif.wf ∧ s.dev.si.pif = [(0, 7)] ∧ s.params.wellFormed = true := by
  decide

/-- Start 1 is after the counter 0, start 0 is not. -/
theorem test_witness_Scheduling :
    State.reset.refused = false ∧ State.reset.sched.cycle < 1 ∧ 0 ≤ State.reset.sched.cycle ∧
    ((HostOp.scheduleEvery 1 2 3 .done).apply State.reset).sched.events =
      [⟨1, .done⟩, ⟨3, .done⟩, ⟨5, .done⟩] ∧
    (HostOp.scheduleEvery 0 1 1 .done).apply State.reset = refuse State.reset := by
  decide

/-- Due events around a later one, the callbacks running; a callback that refuses; two vblank events and no other. -/
theorem test_witness_SameCycleInterrupt :
    let now := fun op => HostOp.scheduleAt 1 (.andThen op .done)
    let s := applyAll [now .spKick, .scheduleAt 2 .done, now (.scheduleAt 3 .done)] (start 0 [])
    let r := applyAll [now (.load .word 0x80000002)] (start 0 [])
    let due := fun m : State => m.sched.events.filter fun e => decide (e.cycle = m.sched.cycle + 1)
    let kept := fun m : State => m.sched.events.filter fun e => decide (e.cycle ≠ m.sched.cycle + 1)
    let after := fun m : State => applyAll ((due m).flatMap fun e => e.callback.ops)
      (m.setSched { cycle := m.sched.cycle + 1, events := kept m })
    (s.refused = false ∧ (due s).length = 2 ∧ (after s).refused = false ∧
      (after s).sched = { cycle := 1, events := [⟨2, .done⟩, ⟨3, .done⟩] }) ∧
    (r.refused = false ∧ (after r).refused = true) ∧
    let v := applyAll [.store .word 0xA430000C 8, .cop0Write 12 0x401, .scheduleEvery 1 1 1 (.andThen .viVblank .done),
      now .viVblank] (start 0 [])
    v.refused = false ∧
    v.sched.events = List.replicate (1 + 1) { cycle := v.sched.cycle + 1, callback := .andThen .viVblank .done } ∧
    v.cp0.status.getLsbD 0 = true ∧ v.cp0.status.getLsbD 1 = false ∧ v.cp0.status.getLsbD 10 = true ∧
    v.dev.mi.mask.getLsbD 3 = true := by
  decide

/-- An event two cycles away; a step that is refused; a machine that has refused. -/
theorem test_witness_QuietCycle :
    (scheduled.refused = false ∧ ∀ e ∈ scheduled.sched.events, e.cycle ≠ scheduled.sched.cycle + 1) ∧
    refusal (start 0x42000001 []) = some .tlbOpBehaviour ∧ (start 0x42000001 []).refused = false ∧
    (refuse State.reset).refused = true := by
  decide

/-- Each segment of a host load and store at its first and last word, a misaligned one, and RAM's first byte, last byte
and the one after; by the values read, on a machine with tlbMode 1. -/
theorem test_witness_HostAccess :
    let s := applyAll [.store .word 0xA03FFFFC 0x11223344, .store .byte 0x80000000 7] (withParams tlbParams State.reset)
    let loads := fun va => (hostLoad s va .word).1
    s.refused = false ∧ s.params.tlbMode = true ∧ (7 : RegNum) ≠ 0 ∧
    (loads 0x003FFFFC = some 0x11223344 ∧ loads 0 = some 0x07000000 ∧ loads 0x7FFFFFFC = some 0) ∧
    (loads 0x80000000 = some 0x07000000 ∧ loads 0x803FFFFC = some 0x11223344 ∧ loads 0x9FFFFFFC = some 0) ∧
    (loads 0xA0000000 = some 0x07000000 ∧ loads 0xA03FFFFC = some 0x11223344 ∧ loads 0xBFFFFFFC = some 0) ∧
    (loads 0xC0000000 = some 0 ∧ loads 0xFFFFFFFC = some 0) ∧
    hostLoad s 0x80000002 .word = (none, refuse s) ∧ (0x80000001#32).toNat % Width.half.bytes ≠ 0 ∧
    (s.ram.wf ∧ 0 < s.params.ramSize ∧ 0x3FFFFF < s.params.ramSize ∧ s.params.ramSize ≤ 0x400000) ∧
    peekRam (pokeRam s 0 9) 0 = 9 ∧ peekRam (pokeRam s 0x3FFFFF 9) 0x3FFFFF = 9 ∧ pokeRam s 0x400000 9 = s ∧
    peekRam s 0x400000 = 0 := by
  decide

end Sys2Proof.Tests
end

section
/-! When a step is refused (42_branch.md R260, R265; 20_memory.md R114; 44_system.md R339 to R342), and the settling of
StepRefusals. -/

namespace Sys2Proof.Machine

/-- A row that answers Modified answered so in the table: the distance from its first address only moves a hit. -/
theorem tlbRangeAnswer_modified {va : Word} {r : TlbRange} (h : tlbRangeAnswer va r = .modified) :
    r.answer = .modified := by
  unfold tlbRangeAnswer at h
  split at h
  · cases h
  · exact h

/-- Only a row of the table for that kind of access answers Modified; an unlisted address misses (log 2). -/
theorem tlbLookup_modified {p : Params} {va : Word} {kind : AccessKind} (h : tlbLookup p va kind = .modified) :
    ∃ r ∈ p.tlb, r.kind = kind ∧ r.answer = .modified := by
  unfold tlbLookup at h
  split at h
  · next r hr =>
    have hmatch := List.find?_some hr
    simp only [tlbRangeMatches, Bool.and_eq_true, beq_iff_eq] at hmatch
    obtain ⟨⟨hkind, _⟩, _⟩ := hmatch
    exact ⟨r, List.mem_of_find?_eq_some hr, hkind, tlbRangeAnswer_modified h⟩
  · cases h

/-- A row that answers Modified is well formed for stores alone (20_memory.md R114). -/
theorem tlbRange_wellFormed_of_modified {r : TlbRange} (h : r.answer = .modified) :
    r.wellFormed = (r.kind == .store) := by
  unfold TlbRange.wellFormed
  rw [h]

/-- Well-formed parameters have well-formed rows. -/
theorem tlb_wellFormed {p : Params} (h : p.wellFormed = true) {r : TlbRange} (hr : r ∈ p.tlb) : r.wellFormed = true := by
  simp only [Params.wellFormed, Bool.and_eq_true] at h
  obtain ⟨⟨_, htlb⟩, _⟩ := h
  exact List.all_eq_true.1 htlb r hr

/-- No well-formed parameter answers Modified to a fetch or a load (20_memory.md R114). -/
theorem tlbLookup_ne_modified {p : Params} (hp : p.wellFormed = true) {va : Word} {kind : AccessKind}
    (hk : kind ≠ .store) : tlbLookup p va kind ≠ .modified := by
  intro h
  obtain ⟨r, hr, hkind, hans⟩ := tlbLookup_modified h
  have hstore : r.kind = .store := by
    simpa [tlbRange_wellFormed_of_modified hans] using tlb_wellFormed hp hr
  exact hk (hkind.symm.trans hstore)

/-- A refused translation shows the TLB checks on and the parameters not well formed. -/
theorem translate_refuse_params {p : Params} {va : Word} {kind : AccessKind} {r : Refusal}
    (h : translateAddress p va kind = .refuse r) :
    r = .tlbLookupModifiedOnRead ∧ p.tlbMode = true ∧ p.wellFormed = false := by
  obtain ⟨hr, hmode, _, hkind, hmod⟩ := translate_refuse h
  exact ⟨hr, hmode, Bool.eq_false_iff.2 fun hp => tlbLookup_ne_modified hp hkind hmod⟩

/-- Computing a result from an access does not change its refusal. -/
theorem Access.map_refuse {α β : Type} {f : α → β} {x : Access α} {r : Refusal} (h : x.map f = .refuse r) :
    x = .refuse r := by
  cases x with
  | ok a => cases h
  | raise e => cases h
  | refuse q => exact congrArg Access.refuse (Access.refuse.inj h)

/-- A fetch is refused only by its translation: a misaligned pc raises an exception (42_branch.md R260). -/
theorem fetch_refuse {s : State} {r : Refusal} (h : fetch s = .refuse r) :
    translateAddress s.params s.pc .fetch = .refuse r := by
  unfold fetch at h
  split at h
  · exact Access.map_refuse h
  · cases h

/-- A fetched word is refused only through its instruction: a word without one enters an exception. -/
theorem execWord_refused {w : Word} {s : State} {r : Refusal} (h : execWord w s = .refused r) :
    ∃ i, decode w = .instr i ∧ exec i s = .refused r := by
  unfold execWord at h
  split at h
  · next i hd => exact ⟨i, hd, h⟩
  · cases h

/-- THE INVERSION of a refused `step`: a machine that has refused, a refused fetch, or a refused instruction. -/
theorem step_refused {s : State} {r : Refusal} (h : step s = .refused r) :
    (s.refused = true ∧ r = .alreadyRefused) ∨
    (s.refused = false ∧ interruptTaken s = false ∧
      (fetch s = .refuse r ∨ ∃ w i, fetch s = .ok w ∧ decode w = .instr i ∧ exec i s = .refused r)) := by
  unfold step at h
  split at h
  · next hs => exact .inl ⟨hs, (Host.Outcome.refused.inj h).symm⟩
  · next hs =>
    split at h
    · cases thenTick_refused h
    · next hi =>
      refine .inr ⟨Bool.eq_false_iff.2 hs, Bool.eq_false_iff.2 hi, ?_⟩
      rcases andThen_refused (thenTick_refused h) with ⟨w, hw, hk⟩ | hx
      · obtain ⟨i, hd, he⟩ := execWord_refused hk
        exact .inr ⟨w, i, hw, hd, he⟩
      · exact .inl hx

end Sys2Proof.Machine

namespace Sys2Proof.Claims
open Sys2Proof.Machine

/-- The model's list of branches, jumps and ERET holds only what 42_branch.md R265 names. -/
theorem controlTransfer_of_isControl {i : Instr} (h : i.isControl = true) : ControlTransfer i := by
  cases i
  case beq | bne | blez | bgtz | bltz | bgez | bltzal | bgezal | j | jal | jr | jalr | eret => constructor
  all_goals cases h

/-- Settles O48: the outcome's fault type is empty (93_implementation_defined.md section 2), and each way a step is
refused, by `step_refused` and `exec_refused`, has its cause. -/
theorem stepRefusals : Obligations.StepRefusals := by
  unfold Obligations.StepRefusals
  refine ⟨fun _ f => f.casesOn, fun s r h => ?_⟩
  rcases step_refused h with ⟨hs, hr⟩ | ⟨hs, hi, hfetch | ⟨w, i, hw, hd, he⟩⟩
  · exact .inl ⟨hr, hs⟩
  · exact .inr ⟨hs, hi, .inr (.inr (translate_refuse_params (fetch_refuse hfetch)))⟩
  · refine .inr ⟨hs, hi, ?_⟩
    have fetches : Fetches s i := ⟨w, hw, hd⟩
    rcases exec_refused he with ⟨hr, hc, hp⟩ | ⟨hr, htlb⟩ | ⟨_, va, hload⟩
    · exact .inl ⟨hr, hp, i, fetches, controlTransfer_of_isControl hc⟩
    · exact .inr (.inl ⟨hr, i, by simpa using htlb, fetches⟩)
    · exact .inr (.inr (translate_refuse_params hload))

end Sys2Proof.Claims
end

section
/-! What every step keeps: the invariant (StepKeepsInvariant, ResetMeetsInvariant, ResetState), by one lemma a shared
operation. -/

namespace Sys2Proof.Machine

/-! ### COP0: what a write, an entry and the tick leave of each register -/

/-- No write reaches BadVAddr (44_system.md R348). -/
@[simp] theorem cop0Written_badVAddr (c : Cop0) (n : RegNum) (v : Word) : (cop0Written c n v).badVAddr = c.badVAddr := by
  unfold cop0Written
  split <;> rfl

/-- No write reaches ExcCode: one to Cause takes the software interrupt bits alone (44_system.md R352). -/
@[simp] theorem cop0Written_excCode (c : Cop0) (n : RegNum) (v : Word) : (cop0Written c n v).excCode = c.excCode := by
  unfold cop0Written
  split <;> rfl

/-- Only a write to Compare reaches IP7 (44_system.md R350). -/
theorem cop0Written_ip7 (c : Cop0) {n : RegNum} (v : Word) (h : n ≠ 11) : (cop0Written c n v).ip7 = c.ip7 := by
  unfold cop0Written
  split
  · rfl
  · rfl
  · rfl
  · exact absurd rfl h
  all_goals rfl

/-- Only a write to Status reaches Status (44_system.md R351). -/
theorem cop0Written_status (c : Cop0) {n : RegNum} (v : Word) (h : n ≠ 12) : (cop0Written c n v).status = c.status := by
  unfold cop0Written
  split
  · rfl
  · rfl
  · rfl
  · rfl
  · exact absurd rfl h
  all_goals rfl

/-- Context is kept, but by a write to it (44_system.md R347). -/
theorem cop0Written_context (c : Cop0) (n : RegNum) (v : Word) :
    (cop0Written c n v).context = c.context ∨ (cop0Written c n v).context = contextWritten c.context v := by
  unfold cop0Written
  split
  · exact .inl rfl
  · exact .inr rfl
  all_goals exact .inl rfl

/-- The phase of Count is kept, but by a write to Count (44_system.md R349). -/
theorem cop0Written_countPhase (c : Cop0) (n : RegNum) (v : Word) :
    (cop0Written c n v).countPhase = c.countPhase ∨ (cop0Written c n v).countPhase = 0 := by
  unfold cop0Written
  split
  · exact .inl rfl
  · exact .inl rfl
  · exact .inr rfl
  all_goals exact .inl rfl

section ticked
variable (c : Cop0) (d : Nat)
@[simp] theorem cop0Ticked_badVAddr : (cop0Ticked c d).badVAddr = c.badVAddr := by rw [cop0Ticked_frame]
@[simp] theorem cop0Ticked_status : (cop0Ticked c d).status = c.status := by rw [cop0Ticked_frame]
@[simp] theorem cop0Ticked_excCode : (cop0Ticked c d).excCode = c.excCode := by rw [cop0Ticked_frame]
@[simp] theorem cop0Ticked_context : (cop0Ticked c d).context = c.context := by rw [cop0Ticked_frame]
@[simp] theorem cop0Ticked_compare : (cop0Ticked c d).compare = c.compare := by rw [cop0Ticked_frame]
end ticked

/-! ### The invariant's part in COP0 -/

/-- A code of the taxonomy: 0 to 5 or 8 to 13 (60_exceptions.md R400). -/
def IsExcCode (code : BitVec 5) : Prop := code.toNat ≤ 5 ∨ (8 ≤ code.toNat ∧ code.toNat ≤ 13)

/-- The parts of `Inv` that lie in COP0, for a Count divisor. -/
structure Cop0Inv (c : Cop0) (divisor : Nat) : Prop where
  context : c.context.extractLsb' 0 4 = 0
  excCode : IsExcCode c.excCode
  phase : c.countPhase < divisor

/-- Every exception of the model has a code of the taxonomy. -/
theorem Exc.code_isExcCode (e : Exc) : IsExcCode e.code := by
  unfold IsExcCode
  cases e <;> simp [Exc.code]

/-- A write to Context leaves bits 3:0 zero (10_state.md R42). -/
theorem contextWritten_low (context v : Word) : (contextWritten context v).extractLsb' 0 4 = 0 := by
  have hkept : (0xFF800000 : Word).extractLsb' 0 4 = 0 := by decide
  have htaken : (0x007FFFF0 : Word).extractLsb' 0 4 = 0 := by decide
  unfold contextWritten
  rw [BitVec.extractLsb'_or, BitVec.extractLsb'_and, BitVec.extractLsb'_and, hkept, htaken]
  simp

/-- Writing BadVPN2 keeps bits 3:0 of Context. -/
theorem contextWithBadVpn2_low (context va : Word) :
    (contextWithBadVpn2 context va).extractLsb' 0 4 = context.extractLsb' 0 4 := by
  refine BitVec.eq_of_getLsbD_eq fun i hi => ?_
  have hlow : i < 23 := by omega
  have kept : (va.extractLsb' 23 9 ++ context.extractLsb' 0 23).getLsbD i = context.getLsbD i := by
    rw [BitVec.getLsbD_append]
    simp [hlow]
  rw [BitVec.getLsbD_extractLsb', BitVec.getLsbD_extractLsb', Nat.zero_add]
  exact congrArg (decide (i < 4) && ·) kept

theorem cop0Written_inv {c : Cop0} {d : Nat} (h : Cop0Inv c d) (n : RegNum) (v : Word) : Cop0Inv (cop0Written c n v) d := by
  obtain ⟨hcontext, hcode, hphase⟩ := h
  refine ⟨?_, ?_, ?_⟩
  · rcases cop0Written_context c n v with hw | hw <;> rw [hw]
    · exact hcontext
    · exact contextWritten_low _ _
  · rwa [cop0Written_excCode]
  · rcases cop0Written_countPhase c n v with hw | hw <;> rw [hw]
    · exact hphase
    · exact Nat.zero_lt_of_lt hphase

theorem cop0Entered_inv {c : Cop0} {d : Nat} (h : Cop0Inv c d) (e : Exc) (a : Word) (inDelay : Bool) :
    Cop0Inv (cop0Entered c e a inDelay) d := by
  obtain ⟨hcontext, hcode, hphase⟩ := h
  refine ⟨?_, ?_, hphase⟩
  · show ((e.tlbAddress.map (contextWithBadVpn2 c.context)).getD c.context).extractLsb' 0 4 = 0
    cases e.tlbAddress with
    | none => exact hcontext
    | some va => exact (contextWithBadVpn2_low _ _).trans hcontext
  · show IsExcCode (if c.exl then c.excCode else e.code)
    split
    · exact hcode
    · exact e.code_isExcCode

theorem cop0Ticked_inv {c : Cop0} {d : Nat} (h : Cop0Inv c d) : Cop0Inv (cop0Ticked c d) d := by
  obtain ⟨hcontext, hcode, hphase⟩ := h
  exact ⟨by rwa [cop0Ticked_context], by rwa [cop0Ticked_excCode], cop0Ticked_phase hphase⟩

/-! ### The invariant -/

theorem Inv.cop0 {s : State} (h : Inv s) : Cop0Inv s.cp0 s.params.countDivisor := ⟨h.context, h.excCode, h.phase⟩

/-- `Inv` put together from its parts in RAM and the devices, in the registers, in COP0 and in the scheduler. -/
theorem inv_of_parts {s : State} (hbus : BusInv s) (hzero : s.regs[0] = 0) (hcop0 : Cop0Inv s.cp0 s.params.countDivisor)
    (hevents : ∀ e ∈ s.sched.events, s.sched.cycle < e.cycle) : Inv s :=
  ⟨hbus.params, hzero, hbus.ram, hbus.pif, hcop0.context, hcop0.excCode, hcop0.phase, hbus.pending, hbus.mask, hevents⟩

/-- `Inv` speaks of six fields of the state and of no other. -/
theorem Inv.congr {s t : State} (h : Inv s) (hregs : t.regs = s.regs) (hcp0 : t.cp0 = s.cp0) (hram : t.ram = s.ram)
    (hdev : t.dev = s.dev) (hsched : t.sched = s.sched) (hparams : t.params = s.params) : Inv t := by
  obtain ⟨hp, hz, hr, hpif, hc, he, hph, hpe, hm, hev⟩ := h
  constructor <;> simpa only [hregs, hcp0, hram, hdev, hsched, hparams]

theorem setCp0_inv {s : State} (h : Inv s) {c : Cop0} (hc : Cop0Inv c s.params.countDivisor) : Inv (s.setCp0 c) :=
  inv_of_parts ⟨h.params, h.ram, h.pif, h.pending, h.mask⟩ h.zero hc h.events

theorem writeReg_inv {s : State} (h : Inv s) (d : RegNum) (v : Word) : Inv (writeReg s d v) := by
  obtain ⟨regs, hw, hzero⟩ := writeReg_cases s d v
  rw [hw]
  exact inv_of_parts ⟨h.params, h.ram, h.pif, h.pending, h.mask⟩ (hzero.trans h.zero) h.cop0 h.events

theorem retire_inv {s : State} (h : Inv s) : Inv (retire s) := by
  apply h.congr <;> simp

theorem cop0Write_inv {s : State} (h : Inv s) (n : RegNum) (v : Word) : Inv (cop0Write s n v) :=
  setCp0_inv h (cop0Written_inv h.cop0 n v)

theorem enterException_inv {s : State} (h : Inv s) (e : Exc) : Inv (enterException e s) :=
  (setCp0_inv h (cop0Entered_inv h.cop0 e s.pc s.pend.valid)).congr rfl rfl rfl rfl rfl rfl

theorem returnFromException_inv {s : State} (h : Inv s) : Inv (returnFromException s) :=
  have hcop0 : Cop0Inv { s.cp0 with status := s.cp0.status &&& ~~~exlBit } s.params.countDivisor :=
    ⟨h.context, h.excCode, h.phase⟩
  (setCp0_inv h hcop0).congr rfl rfl rfl rfl rfl rfl

theorem countTick_inv {s : State} (h : Inv s) : Inv (countTick s) :=
  setCp0_inv h (cop0Ticked_inv h.cop0)

/-- A bus write to an aligned address keeps the invariant. -/
theorem busWrite_inv {s : State} (h : Inv s) {pa : Word} {w : Width} (ha : pa.toNat % w.bytes = 0) (v : Word) :
    Inv (busWrite s pa w v) := by
  refine inv_of_parts (busWrite_busInv h.bus pa w v ha) ?_ ?_ ?_
  · simpa only [busWrite_regs] using h.zero
  · simpa only [busWrite_cp0, busWrite_params] using h.cop0
  · simpa only [busWrite_sched] using h.events

/-- Everything an instruction can do keeps the invariant. A store's checks give it an aligned physical address, since
well-formed parameters translate aligned addresses to aligned ones (log 2). -/
theorem Effect.inv {i : Instr} {s u : State} (he : Effect i s u) (h : Inv s) : Inv u := by
  cases he with
  | register d v => exact retire_inv (writeReg_inv h d v)
  | hiLo hi lo draws _ _ => exact retire_inv (h.congr rfl rfl rfl rfl rfl rfl)
  | branch target d v _ _ => exact (writeReg_inv h d v).congr rfl rfl rfl rfl rfl rfl
  | store w va pa v ha ht _ => exact retire_inv (busWrite_inv h (translateAddress_aligned h.params ht ha) v)
  | cop0 rt n _ => exact retire_inv (cop0Write_inv h n _)
  | eret _ _ => exact returnFromException_inv h
  | exception e _ => exact enterException_inv h e

end Sys2Proof.Machine

namespace Sys2Proof.Claims
open Sys2Proof.Machine

/-- THE TWO WAYS of a step: before the tick it enters an exception with nothing else done, or it ran the instruction it
fetched. -/
theorem step_enters_or_runs {s t : State} (h : step s = .next t) :
    ∃ u, t = countTick u ∧ ((∃ e, u = enterException e s) ∨ ∃ i, Fetches s i ∧ Effect i s u) := by
  obtain ⟨_, u, ht, ⟨_, hu⟩ | ⟨_, ⟨e, _, hu⟩ | ⟨w, why, _, _, hu⟩ | ⟨w, i, hw, hd, _, heffect⟩⟩⟩ := step_next h
  · exact ⟨u, ht, .inl ⟨_, hu⟩⟩
  · exact ⟨u, ht, .inl ⟨e, hu⟩⟩
  · exact ⟨u, ht, .inl ⟨_, hu⟩⟩
  · exact ⟨u, ht, .inr ⟨i, ⟨w, hw, hd⟩, heffect⟩⟩

/-- Settles O3: entering an exception, every effect of an instruction, and the tick each keep the invariant. -/
theorem stepKeepsInvariant : Obligations.StepKeepsInvariant := by
  unfold Obligations.StepKeepsInvariant
  intro s t h hstep
  obtain ⟨u, rfl, ⟨e, rfl⟩ | ⟨i, _, heffect⟩⟩ := step_enters_or_runs hstep
  · exact countTick_inv (enterException_inv h e)
  · exact countTick_inv (heffect.inv h)

/-- Every general register reads 0 at construction (10_state.md R79). -/
theorem readReg_reset (r : RegNum) : readReg State.reset r = 0 := by
  by_cases hr : r = 0
  · rw [hr, readReg_zero]
  · rw [readReg_of_ne hr]
    exact Vector.getElem_replicate _

/-- Settles O1: the registers by `readReg_reset`, memory because nothing is listed, the rest as the table gives it. -/
theorem resetState : Obligations.ResetState := by
  unfold Obligations.ResetState
  exact ⟨readReg_reset, rfl, rfl, rfl, rfl, by decide, by decide, rfl, rfl, rfl, by decide, by decide, Memory.read_nil,
    Memory.read_nil, rfl, rfl, rfl, rfl⟩

/-- Settles O2: the memories are empty, no event is registered, and the rest is evaluated. -/
theorem resetMeetsInvariant : Obligations.ResetMeetsInvariant := by
  unfold Obligations.ResetMeetsInvariant
  have noCells (limit : Nat) : Memory.below [] limit := fun _ hc => nomatch hc
  have bus : BusInv State.reset :=
    ⟨by decide, ⟨Memory.wf_nil, noCells _⟩, ⟨Memory.wf_nil, noCells _⟩, by decide, by decide⟩
  have cop0 : Cop0Inv State.reset.cp0 State.reset.params.countDivisor := ⟨by decide, .inl (by decide), by decide⟩
  exact inv_of_parts bus (Vector.getElem_replicate _) cop0 fun _ he => nomatch he

end Sys2Proof.Claims
end

section
/-! What every step leaves alone (TimerLatch, BadVAddrWriters, StatusWriters, OneRegisterWritten, StepLeavesHostState):
case analyses of `step_enters_or_runs`. -/

namespace Sys2Proof.Machine

@[simp] theorem returnFromException_rom (s : State) : (returnFromException s).rom = s.rom := rfl
@[simp] theorem returnFromException_sched (s : State) : (returnFromException s).sched = s.sched := rfl
@[simp] theorem returnFromException_draws (s : State) : (returnFromException s).draws = s.draws := rfl
@[simp] theorem returnFromException_refused (s : State) : (returnFromException s).refused = s.refused := rfl

/-! ### What an instruction can do, a part of the state at a time -/

/-- An instruction's effect on COP0: none, the write of MTC0, the return of ERET, or an exception entry. -/
theorem Effect.cop0_cases {i : Instr} {s u : State} (he : Effect i s u) :
    u.cp0 = s.cp0 ∨ (∃ rt n, i = .mtc0 rt n ∧ u.cp0 = cop0Written s.cp0 n (readReg s rt)) ∨
      (i = .eret ∧ u.cp0 = { s.cp0 with status := s.cp0.status &&& ~~~exlBit }) ∨ ∃ e, u = enterException e s := by
  cases he with
  | register d v => exact .inl (by simp)
  | hiLo hi lo draws _ _ => exact .inl (by simp)
  | branch target d v _ _ => exact .inl (by simp)
  | store w va pa v _ _ _ => exact .inl (by simp)
  | cop0 rt n hi => exact .inr (.inl ⟨rt, n, hi, by simp [cop0Write]⟩)
  | eret hi _ => exact .inr (.inr (.inl ⟨hi, rfl⟩))
  | exception e _ => exact .inr (.inr (.inr ⟨e, rfl⟩))

/-- An instruction's effect on the registers is one write, to register 0 where there is none. -/
theorem Effect.regs_writeReg {i : Instr} {s u : State} (he : Effect i s u) : ∃ d v, u.regs = (writeReg s d v).regs := by
  cases he with
  | register d v => exact ⟨d, v, retire_regs _⟩
  | branch target d v _ _ => exact ⟨d, v, rfl⟩
  | hiLo hi lo draws _ _ => exact ⟨0, 0, retire_regs _⟩
  | store w va pa v _ _ _ => exact ⟨0, 0, (retire_regs _).trans (busWrite_regs s pa w v)⟩
  | cop0 rt n _ => exact ⟨0, 0, retire_regs _⟩
  | eret _ _ => exact ⟨0, 0, rfl⟩
  | exception e _ => exact ⟨0, 0, rfl⟩

/-- Only a division by zero and a word store draw (41_muldiv.md R249; 60_exceptions.md R443). -/
theorem Effect.draws_cases {i : Instr} {s u : State} (he : Effect i s u) :
    u.draws = s.draws ∨ s.draws ≤ u.draws ∧
      ((∃ rs rt, i = .div rs rt ∨ i = .divu rs rt) ∨ ∃ rt imm rs, i = .sw rt imm rs) := by
  cases he with
  | register d v => exact .inl (by simp)
  | hiLo hi lo draws _ hd =>
    rw [retire_draws, setDraws_draws]
    rcases hd with hd | ⟨hd, hdiv⟩
    · exact .inl hd
    · exact .inr ⟨by omega, .inl hdiv⟩
  | branch target d v _ _ => exact .inl (by simp)
  | store w va pa v _ _ hsw =>
    rw [retire_draws]
    obtain ⟨hle, hword⟩ := busWrite_draws s pa w v
    by_cases hw : w = .word
    · exact .inr ⟨hle, .inr (hsw hw)⟩
    · exact .inl (hword hw)
  | cop0 rt n _ => exact .inl (by simp [cop0Write])
  | eret _ _ => exact .inl rfl
  | exception e _ => exact .inl rfl

end Sys2Proof.Machine

namespace Sys2Proof.Claims
open Sys2Proof.Machine

/-- No instruction writes the host's state (10_state.md R73, R77; 60_exceptions.md R474). -/
theorem sameHost_of_effect {i : Instr} {s u : State} (he : Effect i s u) : SameHost s u := by
  unfold SameHost
  cases he <;> simp [cop0Write]

/-- Settles O49: an entry draws nothing, an instruction keeps the host's state by `sameHost_of_effect`, and the three
that draw are those of `Effect.draws_cases`. -/
theorem stepLeavesHostState : Obligations.StepLeavesHostState := by
  unfold Obligations.StepLeavesHostState
  intro s t hstep
  obtain ⟨u, rfl, ⟨e, rfl⟩ | ⟨i, fetches, heffect⟩⟩ := step_enters_or_runs hstep
  · exact ⟨⟨rfl, rfl, rfl, rfl⟩, Nat.le_refl _, fun hne => absurd rfl hne⟩
  · show SameHost s u ∧ s.draws ≤ u.draws ∧ (u.draws ≠ s.draws → _)
    refine ⟨sameHost_of_effect heffect, ?_⟩
    rcases heffect.draws_cases with heq | ⟨hle, hdraws⟩
    · exact ⟨heq.ge, fun hne => absurd heq hne⟩
    · exact ⟨hle, fun _ => ⟨i, fetches, hdraws⟩⟩

/-- Settles O47: a step's registers are those of one register write. -/
theorem oneRegisterWritten : Obligations.OneRegisterWritten := by
  unfold Obligations.OneRegisterWritten
  intro s t hstep
  have written : ∃ d v, t.regs = (writeReg s d v).regs := by
    obtain ⟨u, rfl, ⟨e, rfl⟩ | ⟨i, _, heffect⟩⟩ := step_enters_or_runs hstep
    · exact ⟨0, 0, rfl⟩
    · exact heffect.regs_writeReg
  obtain ⟨d, v, hregs⟩ := written
  refine ⟨readReg_zero t, d, fun r hr => ?_⟩
  rw [readReg_congr hregs, readReg_writeReg, if_neg fun hd => hr hd.1]

/-! ### What a step can do to COP0 -/

/-- A step's effect on COP0 before the tick: none, the write of MTC0, the return of ERET, or an exception entry. -/
theorem step_cop0 {s t : State} (h : step s = .next t) :
    ∃ u, t = countTick u ∧
      (u.cp0 = s.cp0 ∨ (∃ rt n, Fetches s (.mtc0 rt n) ∧ u.cp0 = cop0Written s.cp0 n (readReg s rt)) ∨
        (Fetches s .eret ∧ u.cp0 = { s.cp0 with status := s.cp0.status &&& ~~~exlBit }) ∨ ∃ e, u = enterException e s) := by
  obtain ⟨u, ht, he | ⟨i, fetches, heffect⟩⟩ := step_enters_or_runs h
  · exact ⟨u, ht, .inr (.inr (.inr he))⟩
  · refine ⟨u, ht, ?_⟩
    rcases heffect.cop0_cases with hu | ⟨rt, n, rfl, hu⟩ | ⟨rfl, hu⟩ | he
    · exact .inl hu
    · exact .inr (.inl ⟨rt, n, fetches, hu⟩)
    · exact .inr (.inr (.inl ⟨fetches, hu⟩))
    · exact .inr (.inr (.inr he))

/-- The tick keeps a latched IP7 (60_exceptions.md R437). -/
theorem cop0Ticked_ip7_of_set {c : Cop0} (d : Nat) (h : c.ip7 = true) : (cop0Ticked c d).ip7 = true := by
  unfold cop0Ticked
  split
  · simp [h]
  · exact h

/-- The tick that latches IP7 has just made Count equal to Compare (60_exceptions.md R437). -/
theorem cop0Ticked_latches {c : Cop0} {d : Nat} (hc : c.ip7 = false) (ht : (cop0Ticked c d).ip7 = true) :
    (cop0Ticked c d).count = (cop0Ticked c d).compare ∧ (cop0Ticked c d).countPhase = 0 := by
  unfold cop0Ticked at ht ⊢
  split at ht
  · next hphase =>
    rw [if_pos hphase]
    exact ⟨by simpa [hc] using ht, rfl⟩
  · exact absurd (hc.symm.trans ht) (by decide)

/-- Before the tick IP7 is as it was, but that MTC0 to Compare has cleared it. -/
theorem step_ip7 {s t : State} (h : step s = .next t) :
    ∃ u, t = countTick u ∧ (u.cp0.ip7 = s.cp0.ip7 ∨ u.cp0.ip7 = false ∧ ∃ rt, Fetches s (.mtc0 rt 11)) := by
  obtain ⟨u, ht, hu | ⟨rt, n, fetches, hu⟩ | ⟨_, hu⟩ | ⟨e, rfl⟩⟩ := step_cop0 h
  · exact ⟨u, ht, .inl (by rw [hu])⟩
  · refine ⟨u, ht, ?_⟩
    rw [hu]
    by_cases hn : n = 11
    · subst hn
      exact .inr ⟨rfl, rt, fetches⟩
    · exact .inl (cop0Written_ip7 _ _ hn)
  · exact ⟨u, ht, .inl (by rw [hu])⟩
  · exact ⟨_, ht, .inl rfl⟩

/-- Settles O43: before the tick only MTC0 to Compare changes IP7, and the tick keeps it set or latches it. -/
theorem timerLatch : Obligations.TimerLatch := by
  unfold Obligations.TimerLatch
  intro s t hstep
  obtain ⟨u, rfl, hu⟩ := step_ip7 hstep
  constructor
  · intro hs hcleared
    rcases hu with hu | ⟨_, fetches⟩
    · exact absurd ((cop0Ticked_ip7_of_set _ (hu.trans hs)).symm.trans hcleared) (by decide)
    · exact fetches
  · intro hs hset
    have hclear : u.cp0.ip7 = false := hu.elim (fun h => h.trans hs) And.left
    exact cop0Ticked_latches hclear hset

/-- A step's effect on Status: none, EXL set by an entry, EXL cleared by ERET, or the write of MTC0. -/
theorem step_status {s t : State} (h : step s = .next t) :
    t.cp0.status = s.cp0.status ∨ t.cp0.status = s.cp0.status ||| exlBit ∨
      (Fetches s .eret ∧ t.cp0.status = s.cp0.status &&& ~~~exlBit) ∨ ∃ rt, Fetches s (.mtc0 rt 12) := by
  obtain ⟨u, rfl, hu⟩ := step_cop0 h
  rw [countTick_cp0, cop0Ticked_status]
  rcases hu with hu | ⟨rt, n, fetches, hu⟩ | ⟨fetches, hu⟩ | ⟨e, rfl⟩
  · exact .inl (congrArg Cop0.status hu)
  · by_cases hn : n = 12
    · subst hn
      exact .inr (.inr (.inr ⟨rt, fetches⟩))
    · rw [hu]
      exact .inl (cop0Written_status _ _ hn)
  · exact .inr (.inr (.inl ⟨fetches, congrArg Cop0.status hu⟩))
  · exact .inr (.inl rfl)

/-- Bit j of a word with bit 1 cleared. -/
theorem and_not_exlBit_getLsbD (v : Word) (j : Nat) (h : j < 32) :
    (v &&& ~~~exlBit).getLsbD j = (!decide (j = 1) && v.getLsbD j) := by
  have mask : ∀ j < 32, (~~~exlBit).getLsbD j = !decide (j = 1) := by decide
  rw [BitVec.getLsbD_and, mask j h, Bool.and_comm]

/-- Settles O46: of the four effects on Status, an entry and ERET reach EXL alone, and an entry sets it. -/
theorem statusWriters : Obligations.StatusWriters := by
  unfold Obligations.StatusWriters
  intro s t hstep
  constructor
  · intro j hj hexl hchanged
    rcases step_status hstep with ht | ht | ⟨_, ht⟩ | fetches
    · exact absurd (congrArg (BitVec.getLsbD · j) ht) hchanged
    · rw [ht, or_exlBit_getLsbD _ j hj] at hchanged
      exact absurd (by simp [hexl]) hchanged
    · rw [ht, and_not_exlBit_getLsbD _ j hj] at hchanged
      exact absurd (by simp [hexl]) hchanged
    · exact fetches
  · intro hset hcleared
    rcases step_status hstep with ht | ht | ⟨fetches, _⟩ | fetches
    · exact absurd (hset.symm.trans ((congrArg (BitVec.getLsbD · 1) ht).symm.trans hcleared)) (by decide)
    · rw [ht, or_exlBit_getLsbD _ 1 (by decide)] at hcleared
      exact absurd hcleared (by simp)
    · exact .inl fetches
    · exact .inr fetches

/-- The exceptions that carry an address have ExcCode 1 to 5 (60_exceptions.md R400, R413). -/
theorem excCode_of_badAddress {e : Exc} {va : Word} (h : e.badAddress = some va) :
    1 ≤ e.code.toNat ∧ e.code.toNat ≤ 5 := by
  cases e <;> simp [Exc.badAddress, Exc.tlbAddress] at h <;> simp [Exc.code]

/-- The three vectors (60_exceptions.md R415). -/
theorem vector_cases (c : Cop0) (e : Exc) : vector c e = 0xBFC00180 ∨ vector c e = 0x80000180 ∨ vector c e = 0x80000000 := by
  unfold vector
  split
  · exact .inl rfl
  · split
    · exact .inr (.inr rfl)
    · exact .inr (.inl rfl)

/-- A step that changes BadVAddr enters an exception that carries an address (60_exceptions.md R413; 44_system.md R348). -/
theorem step_badVAddr {s t : State} (h : step s = .next t) (hbad : t.cp0.badVAddr ≠ s.cp0.badVAddr) :
    ∃ e va, e.badAddress = some va ∧ t = countTick (enterException e s) := by
  obtain ⟨u, rfl, hu⟩ := step_cop0 h
  rw [countTick_cp0, cop0Ticked_badVAddr] at hbad
  rcases hu with hu | ⟨rt, n, _, hu⟩ | ⟨_, hu⟩ | ⟨e, rfl⟩
  · exact absurd (congrArg Cop0.badVAddr hu) hbad
  · exact absurd (by rw [hu, cop0Written_badVAddr]) hbad
  · exact absurd (congrArg Cop0.badVAddr hu) hbad
  · cases he : e.badAddress with
    | none => exact absurd (by simp [cop0Entered, he]) hbad
    | some va => exact ⟨e, va, he, rfl⟩

/-- Settles O44: the step is the entry of an exception that carries an address, whose parts `Enters` gives. -/
theorem badVAddrWriters : Obligations.BadVAddrWriters := by
  unfold Obligations.BadVAddrWriters
  intro s t hstep hbad
  obtain ⟨e, va, he, rfl⟩ := step_badVAddr hstep hbad
  have enters := enters_enterException e s
  refine ⟨?_, enters.slot, fun hexl => ?_, vector_cases s.cp0 e, enters.registers, enters.hiLo, enters.store⟩
  · rw [countTick_cp0, cop0Ticked_status, enters.status 1 (by decide)]
    rfl
  · rw [countTick_cp0, cop0Ticked_excCode, enters.excCode, hexl]
    exact excCode_of_badAddress he

end Sys2Proof.Claims
end

section
/-! Translation and routing (Translation, Routing, SegmentAlias), and the faults of a fetch (FetchFaults): one lemma a
segment, one a route, and what the alignment check makes of each access. -/

namespace Sys2Proof.Machine

/-! ### The segments (20_memory.md R110 to R116) -/

section segments
variable {p : Params} {va : Word} {kind : AccessKind}

/-- KUSEG goes through the TLB when its checks are on, and is identity else (20_memory.md R113, R114). -/
theorem translateAddress_kuseg (h : va.toNat < 0x80000000) :
    translateAddress p va kind = if p.tlbMode then tlbTranslate p va kind else .ok va := by
  have hva : va < 0x80000000#32 := h
  unfold translateAddress
  rw [if_pos hva]

/-- KSEG0 strips its segment bits (20_memory.md R111). -/
theorem translateAddress_kseg0 (h : 0x80000000 ≤ va.toNat) (h' : va.toNat < 0xA0000000) :
    translateAddress p va kind = .ok (va - 0x80000000) := by
  have hlow : ¬va < 0x80000000#32 := Nat.not_lt.2 h
  have hhigh : va < 0xA0000000#32 := h'
  unfold translateAddress
  rw [if_neg hlow, if_pos hhigh]

/-- KSEG1 strips its segment bits (20_memory.md R111). -/
theorem translateAddress_kseg1 (h : 0xA0000000 ≤ va.toNat) (h' : va.toNat < 0xC0000000) :
    translateAddress p va kind = .ok (va - 0xA0000000) := by
  have hkuseg : ¬va < 0x80000000#32 := Nat.not_lt.2 (show 0x80000000 ≤ va.toNat by omega)
  have hlow : ¬va < 0xA0000000#32 := Nat.not_lt.2 h
  have hhigh : va < 0xC0000000#32 := h'
  unfold translateAddress
  rw [if_neg hkuseg, if_neg hlow, if_pos hhigh]

/-- KSEG2 and KSEG3 are identity (20_memory.md R116). -/
theorem translateAddress_kseg2 (h : 0xC0000000 ≤ va.toNat) : translateAddress p va kind = .ok va := by
  have hkuseg : ¬va < 0x80000000#32 := Nat.not_lt.2 (show 0x80000000 ≤ va.toNat by omega)
  have hkseg0 : ¬va < 0xA0000000#32 := Nat.not_lt.2 (show 0xA0000000 ≤ va.toNat by omega)
  have hkseg1 : ¬va < 0xC0000000#32 := Nat.not_lt.2 h
  unfold translateAddress
  rw [if_neg hkuseg, if_neg hkseg0, if_neg hkseg1]

/-- An address of KSEG0 and the same address of KSEG1 have one translation (20_memory.md R112). -/
theorem translateAddress_kseg0_kseg1 (h : 0x80000000 ≤ va.toNat) (h' : va.toNat < 0xA0000000) :
    translateAddress p (va + 0x20000000) kind = translateAddress p va kind := by
  have moved : (va + 0x20000000).toNat = va.toNat + 0x20000000 :=
    BitVec.toNat_add_of_lt (show va.toNat + 0x20000000 < 4294967296 by omega)
  have distance : (0xA0000000 : Word) = 0x80000000 + 0x20000000 := by decide
  rw [translateAddress_kseg1 (by omega) (by omega), translateAddress_kseg0 h h', distance, add_sub_add_right_eq_sub]

end segments

/-! ### The routes (20_memory.md R120, R123) -/

section routes
variable {p : Params} {pa : Word}

theorem route_ram (h : pa.toNat < p.ramSize) : route p pa = .ram := if_pos h

/-- Above RAM the size of RAM does not matter. -/
theorem route_above (h : p.ramSize ≤ pa.toNat) : route p pa = route { p with ramSize := 0 } pa := by
  unfold route
  rw [if_neg (Nat.not_lt.2 h), if_neg (Nat.not_lt_zero _)]

/-- Above RAM an address in the megabyte of a window goes to its device, at the distance from the base. -/
theorem route_megabyte (h : p.ramSize ≤ pa.toNat) {b : Bank} {base : Nat} (hb : (b, base) ∈ mmioBases)
    (hk : pa.toNat / 0x100000 = base / 0x100000) : route p pa = .mmio b (pa.toNat - base) := by
  have hbase : base % 0x100000 = 0 := by
    have whole : ∀ c ∈ mmioBases, c.2 % 0x100000 = 0 := by decide
    exact whole _ hb
  rw [route_above h]
  exact route_window (Nat.zero_le _) hb (by omega) (by omega)

/-- Above RAM an address in the megabyte of no window is out of range. -/
theorem route_outside (h : p.ramSize ≤ pa.toNat) (hk : ∀ b ∈ mmioBases, pa.toNat / 0x100000 ≠ b.2 / 0x100000) :
    route p pa = .outOfRange := by
  have noWindow : (mmioBases.find? fun b => decide (b.2 ≤ pa.toNat) && decide (pa.toNat < b.2 + windowBytes)) = none := by
    have hw : windowBytes = 0x100000 := rfl
    have whole : ∀ b ∈ mmioBases, b.2 % 0x100000 = 0 := by decide
    refine List.find?_eq_none.2 fun b hb => ?_
    have hbase := whole b hb
    have hne := hk b hb
    simp only [Bool.and_eq_true, decide_eq_true_eq]
    omega
  unfold route
  rw [if_neg (Nat.not_lt.2 h), noWindow]

/-- Below the first window and above the last no address is a device's. -/
theorem route_beyond (h : p.ramSize ≤ pa.toNat) (hout : pa.toNat < 0x04000000 ∨ 0x04900000 ≤ pa.toNat) :
    route p pa = .outOfRange := by
  have bases : ∀ b ∈ mmioBases, 0x40 ≤ b.2 / 0x100000 ∧ b.2 / 0x100000 ≤ 0x48 := by decide
  refine route_outside h fun b hb => ?_
  have := bases b hb
  omega

end routes

/-! ### The alignment check (20_memory.md R102 to R104) -/

theorem aligned_iff (va : Word) (w : Width) : aligned va w = true ↔ va.toNat % w.bytes = 0 := by
  unfold aligned
  exact beq_iff_eq

section alignment
variable {s : State} {va : Word} {w : Width}

theorem load_aligned (h : va.toNat % w.bytes = 0) :
    load s va w = (translateAddress s.params va .load).map fun pa => busRead s pa w := if_pos ((aligned_iff va w).2 h)

theorem load_misaligned (h : va.toNat % w.bytes ≠ 0) : load s va w = .raise (.addressErrorLoad va) :=
  if_neg fun ha => h ((aligned_iff va w).1 ha)

theorem storeAddress_aligned (h : va.toNat % w.bytes = 0) : storeAddress s va w = translateAddress s.params va .store :=
  if_pos ((aligned_iff va w).2 h)

theorem storeAddress_misaligned (h : va.toNat % w.bytes ≠ 0) : storeAddress s va w = .raise (.addressErrorStore va) :=
  if_neg fun ha => h ((aligned_iff va w).1 ha)

theorem fetch_aligned (h : s.pc.toNat % 4 = 0) :
    fetch s = (translateAddress s.params s.pc .fetch).map fun pa => busRead s pa .word :=
  if_pos ((aligned_iff s.pc .word).2 h)

theorem fetch_misaligned (h : s.pc.toNat % 4 ≠ 0) : fetch s = .raise (.addressErrorLoad s.pc) :=
  if_neg fun ha => h ((aligned_iff s.pc .word).1 ha)

/-- The distance of KSEG1 from KSEG0 is a multiple of every access size. -/
theorem add_kseg_mod_bytes (va : Word) (w : Width) : (va + 0x20000000).toNat % w.bytes = va.toNat % w.bytes := by
  have distance : (0x20000000 : Word).toNat = 0x20000000 := rfl
  rw [BitVec.toNat_add, distance]
  cases w <;> simp only [Width.bytes] <;> omega

/-- A step whose fetch raises enters that exception and ticks (42_branch.md R260, part 2; 60_exceptions.md R416). -/
theorem step_of_fetch_raise {e : Exc} (hs : s.refused = false) (hi : interruptTaken s = false) (h : fetch s = .raise e) :
    step s = .next (countTick (enterException e s)) := by
  unfold step
  rw [if_neg (by simp [hs]), if_neg (by simp [hi]), h]
  rfl

end alignment

end Sys2Proof.Machine

namespace Sys2Proof.Claims
open Sys2Proof.Machine

/-- Every exception enters as the table of 60_exceptions.md R400 says. -/
theorem entersWith_enterException (e : Exc) (s : State) : EntersWith e s (enterException e s) := by
  have enters := enters_enterException e s
  cases e <;> exact enters

/-- Settles O20: the windows by `route_megabyte`, the holes between them by `route_outside`, the rest by
`route_beyond`. -/
theorem routing : Obligations.Routing := by
  unfold Obligations.Routing
  intro p pa
  refine ⟨route_ram, fun h => ⟨fun k hlow hhigh hk => ?_, route_beyond h⟩⟩
  have window {b : Bank} {base : Nat} (hb : (b, base) ∈ mmioBases) (hbase : base / 0x100000 = k) :
      route p pa = .mmio b (pa.toNat - base) := route_megabyte h hb (hk.trans hbase.symm)
  have hole (hbases : ∀ b ∈ mmioBases, k ≠ b.2 / 0x100000) : route p pa = .outOfRange :=
    route_outside h fun b hb => hk ▸ hbases b hb
  obtain rfl | rfl | rfl | rfl | rfl | rfl | rfl | rfl | rfl : k = 0x40 ∨ k = 0x41 ∨ k = 0x42 ∨ k = 0x43 ∨ k = 0x44 ∨
      k = 0x45 ∨ k = 0x46 ∨ k = 0x47 ∨ k = 0x48 := by omega
  · exact window (b := .sp) (by decide) rfl
  · exact window (b := .dp) (by decide) rfl
  · exact hole (by decide)
  · exact window (b := .mi) (by decide) rfl
  · exact window (b := .vi) (by decide) rfl
  · exact window (b := .ai) (by decide) rfl
  · exact window (b := .pi) (by decide) rfl
  · exact hole (by decide)
  · exact window (b := .si) (by decide) rfl

/-- Settles O21: one lemma a segment, and in KUSEG one answer of tlbLookup at a time. -/
theorem translation : Obligations.Translation := by
  unfold Obligations.Translation
  intro p va kind
  refine ⟨fun h => ?_, fun h => ?_, fun h => ⟨translateAddress_kseg2 h, fun hram => ?_⟩, fun h hm => ?_, fun h hm => ?_⟩
  · exact ⟨va - 0x80000000, BitVec.toNat_sub_of_le (show 0x80000000 ≤ va.toNat by omega),
      translateAddress_kseg0 (by omega) (by omega)⟩
  · exact ⟨va - 0xA0000000, BitVec.toNat_sub_of_le (show 0xA0000000 ≤ va.toNat by omega),
      translateAddress_kseg1 (by omega) (by omega)⟩
  · exact route_beyond (by omega) (.inr (by omega))
  · rw [translateAddress_kuseg h, hm]
    rfl
  · rw [translateAddress_kuseg h, if_pos hm]
    unfold tlbTranslate
    refine ⟨fun pa hl => ?_, fun hl => ?_, fun hl => ?_, fun hl => ?_⟩ <;> rw [hl]

/-- Settles O22: one translation for both addresses, and one answer of the alignment check. -/
theorem segmentAlias : Obligations.SegmentAlias := by
  unfold Obligations.SegmentAlias
  intro s va hlow hhigh
  have same (kind : AccessKind) := translateAddress_kseg0_kseg1 (p := s.params) (kind := kind) hlow hhigh
  refine ⟨same, fun w => ⟨fun h => ?_, fun h => ?_⟩⟩
  · have h' := (add_kseg_mod_bytes va w).trans h
    rw [load_aligned h, load_aligned h', storeAddress_aligned h, storeAddress_aligned h', same, same]
    exact ⟨rfl, rfl⟩
  · have h' := (add_kseg_mod_bytes va w).trans_ne h
    exact ⟨load_misaligned h, load_misaligned h', storeAddress_misaligned h, storeAddress_misaligned h'⟩

/-- Settles O41: the fetch raises, before or in its translation, and the step is that entry and the tick. -/
theorem fetchFaults : Obligations.FetchFaults := by
  unfold Obligations.FetchFaults
  intro s hs hi
  refine ⟨fun h => ?_, fun h e he => ?_⟩
  · exact ⟨_, enters_enterException (.addressErrorLoad s.pc) s, step_of_fetch_raise hs hi (fetch_misaligned h)⟩
  · have hfetch : fetch s = .raise e := by
      rw [fetch_aligned h, he]
      rfl
    exact ⟨_, entersWith_enterException e s, step_of_fetch_raise hs hi hfetch⟩

end Sys2Proof.Claims
end

section
/-! What the bus reads and writes (BusReads), and memory after a store (StoreThenLoad, StoreThenFetch): one lemma a
route, the value of a wide read as a number, and the store of a word. -/

namespace Sys2Proof.Machine

/-! ### Accesses by route (20_memory.md R120 to R127) -/

section byRoute
variable {s : State} {pa : Word}

theorem busRead_ram (h : pa.toNat < s.params.ramSize) (w : Width) : busRead s pa w = s.ram.readWide pa.toNat w := by
  unfold busRead
  rw [route_ram h]

theorem busWrite_ram (h : pa.toNat < s.params.ramSize) (w : Width) (v : Word) :
    busWrite s pa w v = s.setRam (s.ram.writeWide pa.toNat v w) := by
  unfold busWrite
  rw [route_ram h]

theorem busRead_mmio {b : Bank} {o : Nat} (h : route s.params pa = .mmio b o) (w : Width) :
    busRead s pa w = mmioLoad s.params.layout s.dev b o w := by
  unfold busRead
  rw [h]

theorem busWrite_mmio {b : Bank} {o : Nat} (h : route s.params pa = .mmio b o) (w : Width) (v : Word) :
    busWrite s pa w v = mmioStore s b o v w := by
  unfold busWrite
  rw [h]

theorem busRead_outOfRange (h : route s.params pa = .outOfRange) (w : Width) : busRead s pa w = 0 := by
  unfold busRead
  rw [h]

theorem busWrite_outOfRange (h : route s.params pa = .outOfRange) (w : Width) (v : Word) : busWrite s pa w v = s := by
  unfold busWrite
  rw [h]

end byRoute

/-! ### Words in a window (20_memory.md R124, R125) -/

section window
variable {l : MmioLayout} {d : Devices} {b : Bank} {o : Nat}

theorem mmioWordAt_some {r : MmioReg} (h : mmioReg l b o = some r) : mmioWordAt l d b o = mmioRead l d r := by
  unfold mmioWordAt
  rw [h]

theorem mmioWordAt_none (h : mmioReg l b o = none) : mmioWordAt l d b o = 0 := by
  unfold mmioWordAt
  rw [h]

/-- Bit j of a field of `n` bits at bit `k` of a word, zero-extended. -/
theorem getLsbD_field (v : Word) (k n : Nat) {j : Nat} (hj : j < 32) :
    (((v >>> k).extractLsb' 0 n).setWidth 32 : Word).getLsbD j = (decide (j < n) && v.getLsbD (k + j)) := by
  simp [hj]

/-- A byte of a window is that of the word that contains it, big-endian. -/
theorem mmioLoad_byte_getLsbD {j : Nat} (hj : j < 32) : (mmioLoad l d b o .byte).getLsbD j =
    (decide (j < 8) && (mmioWordAt l d b (o - o % 4)).getLsbD (8 * (3 - o % 4) + j)) := getLsbD_field _ _ 8 hj

/-- A halfword of a window is that of the word that contains it, big-endian. -/
theorem mmioLoad_half_getLsbD {j : Nat} (hj : j < 32) : (mmioLoad l d b o .half).getLsbD j =
    (decide (j < 16) && (mmioWordAt l d b (o - o % 4)).getLsbD (8 * (2 - o % 4) + j)) := getLsbD_field _ _ 16 hj

/-- A window reads 0 where its word is 0. -/
theorem mmioLoad_zero (h : mmioWordAt l d b (o - o % 4) = 0) :
    mmioLoad l d b o .byte = 0 ∧ mmioLoad l d b o .half = 0 := by
  simp [mmioLoad, h]

end window

/-- A word store to a register is the register's write (20_memory.md R127). -/
theorem mmioStore_word_some {s : State} {b : Bank} {o : Nat} {r : MmioReg} (h : mmioReg s.params.layout b o = some r)
    (v : Word) : mmioStore s b o v .word = mmioWrite s r v := by
  unfold mmioStore
  rw [h]

/-- A word store to an offset that names no register does nothing (20_memory.md R124). -/
theorem mmioStore_word_none {s : State} {b : Bank} {o : Nat} (h : mmioReg s.params.layout b o = none) (v : Word) :
    mmioStore s b o v .word = s := by
  unfold mmioStore
  rw [h]

/-! ### Wide reads as numbers (20_memory.md R100) -/

/-- A byte put after a value is its lowest base-256 digit. -/
theorem toNat_append_byte {n : Nat} (v : BitVec n) (b : Byte) : (v ++ b).toNat = v.toNat * 256 + b.toNat := by
  rw [BitVec.toNat_append, ← Nat.shiftLeft_add_eq_or_of_lt b.isLt, Nat.shiftLeft_eq]

section readWide
variable (m : Memory) (a : Nat)

theorem Memory.readWide_byte_toNat : (m.readWide a .byte).toNat = (m.read a).toNat :=
  BitVec.toNat_setWidth_of_le (by decide)

theorem Memory.readWide_half_toNat : (m.readWide a .half).toNat = (m.read a).toNat * 256 + (m.read (a + 1)).toNat := by
  rw [Memory.readWide, BitVec.toNat_setWidth_of_le (by decide), toNat_append_byte]

theorem Memory.readWide_word_toNat : (m.readWide a .word).toNat = (m.read a).toNat * 16777216 +
    (m.read (a + 1)).toNat * 65536 + (m.read (a + 2)).toNat * 256 + (m.read (a + 3)).toNat := by
  rw [Memory.readWide, toNat_append_byte, toNat_append_byte, toNat_append_byte]
  omega

end readWide

/-! ### The store of a word, and the reads after it -/

/-- A byte of a stored word, as a number. -/
theorem storedByte_word_toNat (v : Word) (k : Nat) : (storedByte v .word k).toNat = v.toNat / 2 ^ (8 * (3 - k)) % 256 := by
  rw [storedByte, BitVec.extractLsb'_toNat, Nat.shiftRight_eq_div_pow]
  rfl

/-- The four bytes that the store of a word leaves. -/
theorem Memory.read_writeWide_word {m : Memory} (h : m.wf) (a : Nat) (v : Word) {k : Nat} (hk : k < 4) :
    ((m.writeWide a v .word).read (a + k)).toNat = v.toNat / 2 ^ (8 * (3 - k)) % 256 := by
  have inside : a ≤ a + k ∧ a + k < a + Width.word.bytes := ⟨Nat.le_add_right a k, Nat.add_lt_add_left hk a⟩
  rw [Memory.read_writeWide h, if_pos inside, Nat.add_sub_cancel_left, storedByte_word_toNat]

section afterWord
variable {m : Memory} (h : m.wf) (a : Nat) (v : Word)
include h

theorem Memory.readWide_byte_after_word {k : Nat} (hk : k < 4) :
    (m.writeWide a v .word).readWide (a + k) .byte = (v >>> (8 * (3 - k))) &&& 0xFF#32 := by
  apply BitVec.eq_of_toNat_eq
  rw [Memory.readWide_byte_toNat, Memory.read_writeWide_word h a v hk, BitVec.toNat_and, BitVec.toNat_ushiftRight,
    Nat.shiftRight_eq_div_pow]
  exact (Nat.and_two_pow_sub_one_eq_mod _ 8).symm

theorem Memory.readWide_high_half_after_word : (m.writeWide a v .word).readWide a .half = v >>> 16 := by
  have h0 := Memory.read_writeWide_word h a v (k := 0) (by decide)
  have h1 := Memory.read_writeWide_word h a v (k := 1) (by decide)
  apply BitVec.eq_of_toNat_eq
  rw [Nat.add_zero] at h0
  rw [Memory.readWide_half_toNat, h0, h1, BitVec.toNat_ushiftRight, Nat.shiftRight_eq_div_pow]
  omega

theorem Memory.readWide_low_half_after_word : (m.writeWide a v .word).readWide (a + 2) .half = v &&& 0xFFFF#32 := by
  have h2 := Memory.read_writeWide_word h a v (k := 2) (by decide)
  have h3 := Memory.read_writeWide_word h a v (k := 3) (by decide)
  have mask : (v &&& 0xFFFF#32).toNat = v.toNat % 65536 := Nat.and_two_pow_sub_one_eq_mod _ 16
  apply BitVec.eq_of_toNat_eq
  rw [Memory.readWide_half_toNat, Nat.add_assoc a, h2, h3, mask]
  omega

end afterWord

/-- Nothing of a word lies above its first byte. -/
theorem ushiftRight_24_and_mask (v : Word) : (v >>> 24) &&& 0xFF#32 = v >>> 24 := by
  have mask : ((v >>> 24) &&& 0xFF#32).toNat = (v >>> 24).toNat % 256 := Nat.and_two_pow_sub_one_eq_mod _ 8
  apply BitVec.eq_of_toNat_eq
  rw [mask, BitVec.toNat_ushiftRight, Nat.shiftRight_eq_div_pow]
  have := v.isLt
  omega

/-- What SW that completes leaves: the word on the bus at the physical address, and the commit (43_loadstore.md R309). -/
theorem sw_next {s t : State} {rs rt : RegNum} {imm : Imm16} {pa : Word}
    (ha : (readReg s rs + imm.signExtend 32).toNat % 4 = 0)
    (ht : translateAddress s.params (readReg s rs + imm.signExtend 32) .store = .ok pa)
    (h : exec (.sw rt imm rs) s = .next t) : t = retire (busWrite s pa .word (readReg s rt)) := by
  have haddr : storeAddress s (effectiveAddress s rs imm) .word = .ok pa := (storeAddress_aligned ha).trans ht
  rcases storeFrom_next h with ⟨pa', hpa, ht⟩ | ⟨e, he, _⟩
  · cases haddr.symm.trans hpa
    exact ht
  · cases haddr.symm.trans he

/-- The same for RAM: its bytes are the word written there, and the construction is as it was. -/
theorem sw_next_ram {s t : State} {rs rt : RegNum} {imm : Imm16} {pa : Word}
    (ha : (readReg s rs + imm.signExtend 32).toNat % 4 = 0)
    (ht : translateAddress s.params (readReg s rs + imm.signExtend 32) .store = .ok pa)
    (hpa : pa.toNat < s.params.ramSize) (h : exec (.sw rt imm rs) s = .next t) :
    t.ram = s.ram.writeWide pa.toNat (readReg s rt) .word ∧ t.params = s.params := by
  rw [sw_next ha ht h, busWrite_ram hpa]
  exact ⟨by simp, by simp⟩

end Sys2Proof.Machine

namespace Sys2Proof.Claims
open Sys2Proof.Machine

/-- A store to RAM in canonical form writes the low bytes and no others (20_memory.md R121). -/
theorem storesBytes_busWrite {s : State} {pa : Word} (hram : s.ram.wf) (h : pa.toNat < s.params.ramSize) (w : Width)
    (v : Word) : StoresBytes pa.toNat w v s (busWrite s pa w v) := by
  rw [busWrite_ram h]
  refine ⟨fun k hk => ?_, fun a ha => ?_⟩
  · rw [setRam_ram, Memory.read_writeWide hram, if_pos (by omega), Nat.add_sub_cancel_left]
    rfl
  · rw [setRam_ram, Memory.read_writeWide hram, if_neg (by omega)]

/-- Settles O19: one case a route; in RAM a read as a number, in a window by the word that contains it. -/
theorem busReads : Obligations.BusReads := by
  unfold Obligations.BusReads
  intro s pa v
  refine ⟨fun h => ?ram, fun b o hr => ⟨fun r hreg => ?register, fun hreg => ?unlisted, fun r hreg => ?part,
    fun hreg => ?unlistedPart, ?byteStore, ?halfStore⟩, fun hr w => ?outOfRange⟩
  case ram =>
    rw [busRead_ram h, busRead_ram h, busRead_ram h]
    exact ⟨Memory.readWide_byte_toNat _ _, Memory.readWide_half_toNat _ _, Memory.readWide_word_toNat _ _,
      fun hram w => storesBytes_busWrite hram h w v⟩
  case register =>
    rw [busRead_mmio hr, busWrite_mmio hr]
    exact ⟨mmioWordAt_some hreg, mmioStore_word_some hreg v⟩
  case unlisted =>
    rw [busRead_mmio hr, busWrite_mmio hr]
    exact ⟨mmioWordAt_none hreg, mmioStore_word_none hreg v⟩
  case part =>
    rw [busRead_mmio hr, busRead_mmio hr, ← mmioWordAt_some hreg]
    exact ⟨fun j hj => mmioLoad_byte_getLsbD hj, fun _ j hj => mmioLoad_half_getLsbD hj⟩
  case unlistedPart =>
    rw [busRead_mmio hr, busRead_mmio hr]
    exact mmioLoad_zero (mmioWordAt_none hreg)
  case byteStore =>
    rw [busWrite_mmio hr]
    rfl
  case halfStore =>
    rw [busWrite_mmio hr]
    rfl
  case outOfRange => exact ⟨busRead_outOfRange hr w, busWrite_outOfRange hr w v⟩

/-- Settles O23: after the store RAM holds the word's bytes, by which each read of the bus is known. -/
theorem storeThenLoad : Obligations.StoreThenLoad := by
  unfold Obligations.StoreThenLoad
  intro s t rs rt imm pa va v hram ha hstore hload hpa hend hexec
  obtain ⟨hbytes, hparams⟩ := sw_next_ram ha hstore (by omega) hexec
  have reads {a : Word} {k : Nat} (hk : k < 4) (ha : a.toNat = pa.toNat + k) (w : Width) :
      busRead t a w = (s.ram.writeWide pa.toNat v .word).readWide (pa.toNat + k) w := by
    rw [busRead_ram (by rw [hparams]; omega), hbytes, ha]
  have byte {a : Word} {k : Nat} (hk : k < 4) (ha : a.toNat = pa.toNat + k) :
      busRead t a .byte = (v >>> (8 * (3 - k))) &&& 0xFF#32 :=
    (reads hk ha .byte).trans (Memory.readWide_byte_after_word hram _ v hk)
  have word : busRead t pa .word = v :=
    (reads (k := 0) (by decide) rfl .word).trans (Memory.readWide_writeWide_word hram _ v)
  have at1 : (pa + 1).toNat = pa.toNat + 1 := BitVec.toNat_add_of_lt (show pa.toNat + 1 < 4294967296 by omega)
  have at2 : (pa + 2).toNat = pa.toNat + 2 := BitVec.toNat_add_of_lt (show pa.toNat + 2 < 4294967296 by omega)
  have at3 : (pa + 3).toNat = pa.toNat + 3 := BitVec.toNat_add_of_lt (show pa.toNat + 3 < 4294967296 by omega)
  refine ⟨?loaded, word, ?highHalf, ?lowHalf, ?firstByte, byte (by decide) at1, byte (by decide) at2,
    byte (by decide) at3⟩
  case loaded =>
    rw [load_aligned ha, hparams, hload]
    exact congrArg Access.ok word
  case highHalf =>
    exact (reads (k := 0) (by decide) rfl .half).trans (Memory.readWide_high_half_after_word hram _ v)
  case lowHalf => exact (reads (by decide) at2 .half).trans (Memory.readWide_low_half_after_word hram _ v)
  case firstByte => exact (byte (k := 0) (by decide) rfl).trans (ushiftRight_24_and_mask v)

/-- Settles O24: the fetch after the store reads the word just stored, and the tick does not touch what a fetch reads. -/
theorem storeThenFetch : Obligations.StoreThenFetch := by
  unfold Obligations.StoreThenFetch
  intro s t rs rt imm pa va hram ha hstore hpa hexec hpc hfetch
  obtain ⟨hbytes, hparams⟩ := sw_next_ram ha hstore hpa hexec
  have word : busRead t pa .word = readReg s rt := by
    rw [busRead_ram (by rw [hparams]; exact hpa), hbytes]
    exact Memory.readWide_writeWide_word hram _ _
  have fetched : fetch t = .ok (readReg s rt) := by
    rw [fetch_aligned hpc, hparams, hfetch]
    exact congrArg Access.ok word
  exact ⟨fetched, fetched⟩

end Sys2Proof.Claims
end

section
/-! The word reads and writes of the MMIO registers (RegisterReads, RegisterWrites): the accesses at a register's
address are those of the register (`bus_registerAddress`), which this section gives bit by bit. -/

namespace Sys2Proof.Machine

/-- A flag shows at its own bit alone (20_memory.md R128). -/
theorem flagAt_getLsbD (c : Bool) (position : Fin 32) {j : Nat} (hj : j < 32) :
    (flagAt c position).getLsbD j = (decide (j = position) && c) := by
  have single : ∀ (p : Fin 32) (i : Fin 32), ((1 : Word) <<< p.val).getLsbD i = decide (i.val = p.val) := by decide
  cases c with
  | false => simp [flagAt, flag]
  | true => simpa [flagAt, flag] using single position ⟨j, hj⟩

/-- The start of SP, from the ack or without it: both bits are pending after it (60_exceptions.md R450, R451). -/
theorem spStatusWrite_start {l : SpLayout} {d : Devices} {v : Word} (h : v.getLsbD l.startBit = true) :
    d.spStatusWrite l v = d.spStart := by
  have acked : (d.mi.pending &&& ~~~Controller.sp.bit) ||| (Controller.sp.bit ||| Controller.dp.bit) =
      d.mi.pending ||| (Controller.sp.bit ||| Controller.dp.bit) := by
    ext i hi
    simp only [BitVec.getElem_or, BitVec.getElem_and, BitVec.getElem_not]
    cases Controller.sp.bit[i] <;> simp
  unfold Devices.spStatusWrite
  rw [if_pos h]
  split
  · exact congrArg (fun p => { d with spStarts := d.spStarts + 1, mi := { d.mi with pending := p } }) acked
  · rfl

/-- A PI ack leaves no transfer armed (60_exceptions.md R462). -/
theorem piStatusWrite_ack {l : PiLayout} {d : Devices} {v : Word} (h : v.getLsbD l.dmaBusyBit = true) :
    (d.piStatusWrite l v).pi.dmaBusy = false := by
  unfold Devices.piStatusWrite
  rw [if_pos h]
  rfl

end Sys2Proof.Machine

namespace Sys2Proof.Claims
open Sys2Proof.Machine

/-- Settles O54: a register's address reads the register, an address of none selects none, and each status register
shows its flags at their bits. -/
theorem registerReads : Obligations.RegisterReads := by
  unfold Obligations.RegisterReads
  refine ⟨rfl, fun s h => ?_⟩
  have reads (r : MmioReg) := (bus_registerAddress h r).2
  refine ⟨⟨reads .miMode, reads .miVersion, reads .miIntr, reads .miIntrMask⟩,
    ⟨reads .spStatus, reads .spCmdStart, reads .viStatus, reads .siStatus⟩,
    ⟨reads .viOrigin, reads .viWidth, reads .aiDramAddr, reads .aiLen, reads .piDramAddr, reads .piCartAddr,
      reads .piRdLen, reads .piWrLen, reads .siDramAddr, reads .siPifRd, reads .siPifWr⟩,
    fun pa b o hr hunlisted => ?unlisted, fun j hj => ?flags⟩
  case unlisted =>
    have hreg := mmioReg_unlisted hr hunlisted
    exact ⟨(busRead_mmio hr .word).trans (mmioWordAt_none hreg),
      fun v => (busWrite_mmio hr .word v).trans (mmioStore_word_none hreg v)⟩
  case flags =>
    have bits (r : MmioReg) := congrArg (BitVec.getLsbD · j) (reads r)
    refine ⟨(bits .dpStatus).trans ?_, (bits .aiStatus).trans (flagAt_getLsbD _ _ hj), (bits .piStatus).trans ?_⟩ <;>
      simp only [mmioRead, BitVec.getLsbD_or, flagAt_getLsbD _ _ hj]

/-- Settles O53: each word write is the register's write at its address, and each host operation its effect. -/
theorem registerWrites : Obligations.RegisterWrites := by
  unfold Obligations.RegisterWrites
  intro s v h
  have writes (r : MmioReg) := (bus_registerAddress h r).1 v
  refine ⟨writes .miMode, writes .miVersion, writes .miIntr, writes .spCmdStart, fun hstart => ?spStatus,
    fun hs => HostOp.apply_eq hs, writes .viOrigin, writes .viWidth, writes .aiDramAddr, ?aiLen, writes .piDramAddr,
    writes .piCartAddr, writes .piRdLen, writes .piWrLen, writes .siDramAddr, fun hs => ?aiComplete, fun hack => ?piAck⟩
  case spStatus => exact (writes .spStatus).trans (congrArg s.setDev (spStatusWrite_start hstart))
  case aiLen =>
    have busy : (s.dev.ai.dmaBusy || v != 0) = if v = 0 then s.dev.ai.dmaBusy else true := by
      split_ifs with hv
      · simp [hv]
      · rw [bne_iff_ne.2 hv, Bool.or_true]
    refine (writes .aiLen).trans ?_
    rw [← busy]
    rfl
  case aiComplete =>
    rw [HostOp.apply_eq hs]
    show s.setDev s.dev.aiCompleteDma = _
    unfold Devices.aiCompleteDma
    split
    · symm
      refine HostOp.apply_eq ?_
      exact hs
    · rfl
  case piAck =>
    rw [writes .piStatus]
    have idle : (mmioWrite s .piStatus v).dev.pi.dmaBusy = false := piStatusWrite_ack hack
    unfold HostOp.apply
    split
    · rfl
    · exact piCompleteDma_idle idle

end Sys2Proof.Claims
end

section
/-! The host's accesses (HostAccess): what a COP0 write takes, the segment mapping of a host load and store, and the raw
RAM buffer. -/

namespace Sys2Proof.Machine

/-- A register write is a change of the register file alone. -/
theorem writeReg_eq_setRegs (s : State) (d : RegNum) (v : Word) : writeReg s d v = s.setRegs (writeReg s d v).regs := by
  obtain ⟨regs, h, _⟩ := writeReg_cases s d v
  rw [h]
  rfl

/-- Context after a write, bit by bit: bits 22:4 of the value, zeros below, the rest kept (44_system.md R347). -/
theorem contextWritten_getLsbD (context v : Word) {j : Nat} (hj : j < 32) :
    (contextWritten context v).getLsbD j = if j < 23 then decide (4 ≤ j) && v.getLsbD j else context.getLsbD j := by
  have kept : ∀ i < 32, (0xFF800000 : Word).getLsbD i = decide (23 ≤ i) := by decide
  have taken : ∀ i < 32, (0x007FFFF0 : Word).getLsbD i = (decide (4 ≤ i) && decide (i < 23)) := by decide
  unfold contextWritten
  rw [BitVec.getLsbD_or, BitVec.getLsbD_and, BitVec.getLsbD_and, kept j hj, taken j hj]
  by_cases hlow : j < 23
  · rw [if_pos hlow]
    simp [hlow, Bool.and_comm]
  · rw [if_neg hlow]
    simp [hlow, Nat.not_lt.1 hlow]

/-! ### The host's bus accesses (20_memory.md R132) -/

section hostBus
variable {s : State} {va : Word} {w : Width}

/-- An aligned host access goes where the segment mapping says, without the TLB. -/
theorem hostTranslate_aligned {pa : Word} (ha : va.toNat % w.bytes = 0)
    (ht : translateAddress { s.params with tlbMode := false } va .load = .ok pa) : hostTranslate s va w = some pa := by
  unfold hostTranslate
  rw [if_pos ((aligned_iff va w).2 ha), ht]

theorem hostTranslate_misaligned (ha : va.toNat % w.bytes ≠ 0) : hostTranslate s va w = none :=
  if_neg fun h => ha ((aligned_iff va w).1 h)

theorem hostLoad_some {pa : Word} (h : hostTranslate s va w = some pa) : hostLoad s va w = (some (busRead s pa w), s) := by
  unfold hostLoad
  rw [h]

theorem hostLoad_none (h : hostTranslate s va w = none) : hostLoad s va w = (none, refuse s) := by
  unfold hostLoad
  rw [h]

theorem hostStore_some {pa : Word} (h : hostTranslate s va w = some pa) (v : Word) :
    hostStore s va w v = busWrite s pa w v := by
  unfold hostStore
  rw [h]

theorem hostStore_none (h : hostTranslate s va w = none) (v : Word) : hostStore s va w v = refuse s := by
  unfold hostStore
  rw [h]

end hostBus

/-! ### The raw RAM buffer (60_exceptions.md R479; log 11) -/

section rawRam
variable {s : State} {a : Nat}

theorem peekRam_inside (h : a < s.params.ramSize) : peekRam s a = s.ram.read a := if_pos h

theorem peekRam_outside (h : s.params.ramSize ≤ a) : peekRam s a = 0 := if_neg (Nat.not_lt.2 h)

theorem pokeRam_inside (h : a < s.params.ramSize) (b : Byte) : pokeRam s a b = s.setRam (s.ram.write a b) := if_pos h

theorem pokeRam_outside (h : s.params.ramSize ≤ a) (b : Byte) : pokeRam s a b = s := if_neg (Nat.not_lt.2 h)

/-- A raw read depends on RAM's size and the byte alone. -/
theorem peekRam_congr {t : State} (hp : t.params = s.params) (hb : t.ram.read a = s.ram.read a) :
    peekRam t a = peekRam s a := by
  unfold peekRam
  rw [hp, hb]

end rawRam

end Sys2Proof.Machine

namespace Sys2Proof.Claims
open Sys2Proof.Machine

/-- CP0Write takes the bits the rules name, one register at a time, and none at a number that names no
register (44_system.md R346 to R353). -/
theorem takesCop0_of_cop0Written {s t : State} {n : RegNum} {v : Word} (h : t.cp0 = cop0Written s.cp0 n v) :
    TakesCop0 n v s t := by
  unfold TakesCop0
  rw [h]
  unfold cop0Written
  have context (j : Nat) (hj : j < 32) := contextWritten_getLsbD s.cp0.context v hj
  have swIP (j : Nat) (hj : j < 2) : (v.extractLsb' 8 2).getLsbD j = v.getLsbD (8 + j) := by simp [hj]
  split
  case h_2 => simpa using context
  case h_6 => simpa using swIP
  case h_8 => simp_all
  all_goals simp

/-- A host load and store on a machine that has not refused, where the address reaches the bus at `pa`. -/
theorem hostBus_reaches {s : State} {va pa : Word} {w : Width} (hs : s.refused = false)
    (h : hostTranslate s va w = some pa) :
    hostLoad s va w = (some (busRead s pa w), s) ∧ (HostOp.load w va).apply s = s ∧
      ∀ x, (HostOp.store w va x).apply s = busWrite s pa w x :=
  ⟨hostLoad_some h, (HostOp.apply_eq hs).trans (congrArg Prod.snd (hostLoad_some h)),
    fun x => (HostOp.apply_eq hs).trans (hostStore_some h x)⟩

/-- A misaligned host load and store: the refusal mark, and no value (20_memory.md R132). -/
theorem hostBus_refused {s : State} {va : Word} {w : Width} (hs : s.refused = false) (ha : va.toNat % w.bytes ≠ 0) :
    hostLoad s va w = (none, s.setRefused true) ∧ (HostOp.load w va).apply s = s.setRefused true ∧
      ∀ x, (HostOp.store w va x).apply s = s.setRefused true :=
  have h := hostTranslate_misaligned ha
  ⟨hostLoad_none h, (HostOp.apply_eq hs).trans (congrArg Prod.snd (hostLoad_none h)),
    fun x => (HostOp.apply_eq hs).trans (hostStore_none h x)⟩

/-- A raw write inside RAM, on a machine that has not refused, writes its byte and no other. -/
theorem pokeRam_writes {s : State} {a : Nat} (h : a < s.params.ramSize) (hram : s.ram.wf) (b : Byte) :
    peekRam (pokeRam s a b) a = b ∧
      (∀ c, c ≠ a → (pokeRam s a b).ram.read c = s.ram.read c ∧ peekRam (pokeRam s a b) c = peekRam s c) ∧
      pokeRam s a b = s.setRam (pokeRam s a b).ram := by
  rw [pokeRam_inside h]
  have other {c : Nat} (hc : c ≠ a) : (s.ram.write a b).read c = s.ram.read c := by
    rw [Memory.read_write hram, if_neg hc]
  have own : (s.ram.write a b).read a = b := by rw [Memory.read_write hram, if_pos rfl]
  exact ⟨(peekRam_inside (s := s.setRam (s.ram.write a b)) h).trans own,
    fun c hc => ⟨other hc, peekRam_congr rfl (other hc)⟩, rfl⟩

/-- Settles O60: a machine that has not refused runs the operation, whose effect one of the lemmas above gives. -/
theorem hostAccess : Obligations.HostAccess := by
  unfold Obligations.HostAccess
  intro s v r hs
  have run (op : HostOp) : op.apply s = op.effect s := HostOp.apply_eq hs
  refine ⟨⟨run _, run _, run _, fun a => run _⟩, ?setPc, ?setReg, ?cop0Write, fun w => ?bus, fun a b => ?rawRam,
    fun bytes => run _⟩
  case setPc =>
    rw [run]
    exact ⟨rfl, rfl, rfl⟩
  case setReg =>
    rw [run]
    refine ⟨fun hr => ?_, fun q hq => ?_, readReg_zero _, writeReg_eq_setRegs s r v⟩
    · exact (readReg_writeReg s r r v).trans (if_pos ⟨rfl, hr⟩)
    · exact (readReg_writeReg s r q v).trans (if_neg fun h => hq h.1)
  case cop0Write =>
    rw [run]
    exact ⟨takesCop0_of_cop0Written rfl, rfl⟩
  case bus =>
    have reaches {pa : Word} (ha : v.toNat % w.bytes = 0)
        (ht : translateAddress { s.params with tlbMode := false } v .load = .ok pa) :=
      hostBus_reaches hs (hostTranslate_aligned ha ht)
    exact ⟨fun ha h => reaches ha (translateAddress_kuseg h),
      fun ha hlow hhigh => reaches ha (translateAddress_kseg0 hlow hhigh),
      fun ha hlow hhigh => reaches ha (translateAddress_kseg1 hlow hhigh),
      fun ha h => reaches ha (translateAddress_kseg2 h), hostBus_refused hs⟩
  case rawRam =>
    rw [run]
    exact ⟨fun h hram => pokeRam_writes h hram b, peekRam_inside, fun h => ⟨pokeRam_outside h b, peekRam_outside h⟩⟩

end Sys2Proof.Claims
end

section
/-! Where a word stands in the opcode maps (30_encoding.md R164 to R167), and that each row of the opcode table selects
the words of one place (R173). -/

namespace Sys2Proof.Laws
open Sys2Proof.Claims

/-! ### A word from its fields (30_encoding.md R151) -/

theorem jFormat_fields (w : Word) : jFormat (opcodeOf w) (targetOf w) = w :=
  (BitVec.extractLsb'_append_extractLsb'_eq_extractLsb' rfl).trans BitVec.extractLsb'_eq_self

theorem iFormat_fields (w : Word) : iFormat (opcodeOf w) (rsOf w) (rtOf w) (immOf w) = w := by
  unfold iFormat opcodeOf rsOf rtOf immOf
  simp only [BitVec.extractLsb'_append_extractLsb'_eq_extractLsb']
  exact BitVec.extractLsb'_eq_self

theorem codeFormat_fields {w : Word} (h : opcodeOf w = 0x00#6) : codeFormat (code20Of w) (functOf w) = w := by
  unfold codeFormat
  rw [← h]
  unfold opcodeOf code20Of functOf
  simp only [BitVec.extractLsb'_append_extractLsb'_eq_extractLsb']
  exact BitVec.extractLsb'_eq_self

theorem cop0MoveWord_fields {w : Word} (h : opcodeOf w = 0x10#6) :
    cop0MoveWord (rsOf w) (rtOf w) (rdOf w) (w.extractLsb' 0 11) = w := by
  unfold cop0MoveWord
  rw [← h]
  unfold opcodeOf rsOf rtOf rdOf
  simp only [BitVec.extractLsb'_append_extractLsb'_eq_extractLsb']
  exact BitVec.extractLsb'_eq_self

theorem cop0FunctionWord_fields {w : Word} (h : opcodeOf w = 0x10#6) (hco : coOf w = 1#1) :
    cop0FunctionWord (w.extractLsb' 6 19) (functOf w) = w := by
  unfold cop0FunctionWord
  rw [← h, ← hco]
  unfold opcodeOf coOf functOf
  simp only [BitVec.extractLsb'_append_extractLsb'_eq_extractLsb']
  exact BitVec.extractLsb'_eq_self

theorem wordOfBytes_fields (w : Word) :
    wordOfBytes (w.extractLsb' 24 8) (w.extractLsb' 16 8) (w.extractLsb' 8 8) (w.extractLsb' 0 8) = w := by
  unfold wordOfBytes
  simp only [BitVec.extractLsb'_append_extractLsb'_eq_extractLsb']
  exact BitVec.extractLsb'_eq_self

/-- Decoding the four bytes of a word is decoding the word. -/
theorem decodeBytes_bytesOfWord (w : Word) (rest : List Byte) :
    decodeBytes (bytesOfWord w ++ rest) = (decode w, rest) :=
  congrArg (fun v => (decode v, rest)) (wordOfBytes_fields w)

/-- Bit 25 is the top bit of the rs field. -/
theorem coOf_eq_rsOf (w : Word) : coOf w = (rsOf w).extractLsb' 4 1 := by
  unfold coOf rsOf
  ext k hk
  have hk : 4 + k < 5 := by omega
  simp [hk, ← Nat.add_assoc]

/-! ### What the masks of the COP0 rows keep, whatever the ignored bits hold -/

theorem cop0MoveWord_rsMask (rs rt rd : RegNum) (rest : BitVec 11) :
    cop0MoveWord rs rt rd rest &&& 0xFFE00000 = cop0MoveFormat rs 0 0 := by
  have h : (0x10#6 ++ rs ++ rt ++ rd ++ rest) &&& (BitVec.allOnes 6 ++ BitVec.allOnes 5 ++ 0#5 ++ 0#5 ++ 0#11) =
      0x10#6 ++ rs ++ 0#5 ++ 0#5 ++ 0#11 := by
    simp only [BitVec.and_append, BitVec.and_zero, BitVec.and_allOnes]
  exact h

theorem cop0FunctionWord_functMask (rest : BitVec 19) (f : BitVec 6) :
    cop0FunctionWord rest f &&& 0xFE00003F = cop0FunctionFormat f := by
  have h : (0x10#6 ++ 1#1 ++ rest ++ f) &&& (BitVec.allOnes 6 ++ BitVec.allOnes 1 ++ 0#19 ++ BitVec.allOnes 6) =
      0x10#6 ++ 1#1 ++ 0#19 ++ f := by
    simp only [BitVec.and_append, BitVec.and_zero, BitVec.and_allOnes]
  exact h

/-- A field whose bits a mask keeps is the same in the word and in what is left of it. -/
theorem field_of_and_mask {w m p : Word} {start len : Nat} (h : w &&& m = p)
    (hm : m.extractLsb' start len = BitVec.allOnes len) : w.extractLsb' start len = p.extractLsb' start len := by
  rw [← h, BitVec.extractLsb'_and, hm, BitVec.and_allOnes]

/-! ### The place of a word in the opcode maps -/

/-- The map a word is decoded by, with the value of the field that map is indexed by. -/
inductive Place where
  | opcode (opcode : BitVec 6)
  | special (funct : BitVec 6)
  | regimm (rt : BitVec 5)
  | cop0Move (rs : BitVec 5)
  | cop0Function (funct : BitVec 6)

/-- The place the decoder comes to, map by map. -/
def placeOf (w : Word) : Place :=
  if opcodeOf w = 0x00#6 then .special (functOf w)
  else if opcodeOf w = 0x01#6 then .regimm (rtOf w)
  else if opcodeOf w = 0x10#6 then
    if coOf w = 1#1 then .cop0Function (functOf w) else .cop0Move (rsOf w)
  else .opcode (opcodeOf w)

/-- The entry of a map, with the operands taken from `w`. -/
def decodeAt (w : Word) : Place → DecodeResult
  | .opcode o => decodeOpcode w o
  | .special f => decodeSpecial w f
  | .regimm rt => decodeRegimm w rt
  | .cop0Move rs => decodeCop0Move w rs
  | .cop0Function f => decodeCop0Function f

/-- The bits that give a word its place. -/
def Place.mask : Place → Word
  | .opcode _ => 0xFC000000
  | .special _ => 0xFC00003F
  | .regimm _ => 0xFC1F0000
  | .cop0Move _ => 0xFFE00000
  | .cop0Function _ => 0xFE00003F

/-- The values of those bits. -/
def Place.pattern : Place → Word
  | .opcode o => jFormat o 0
  | .special f => codeFormat 0 f
  | .regimm rt => iFormat 0x01#6 0 rt 0
  | .cop0Move rs => cop0MoveFormat rs 0 0
  | .cop0Function f => cop0FunctionFormat f

section placeOf
variable {w : Word}

theorem placeOf_special (h : opcodeOf w = 0x00#6) : placeOf w = .special (functOf w) := if_pos h

theorem placeOf_regimm (h : opcodeOf w = 0x01#6) : placeOf w = .regimm (rtOf w) := by
  simp [placeOf, h]

theorem placeOf_cop0Move (h : opcodeOf w = 0x10#6) (hco : coOf w ≠ 1#1) : placeOf w = .cop0Move (rsOf w) := by
  simp [placeOf, h, hco]

theorem placeOf_cop0Function (h : opcodeOf w = 0x10#6) (hco : coOf w = 1#1) :
    placeOf w = .cop0Function (functOf w) := by
  simp [placeOf, h, hco]

theorem placeOf_opcode (h0 : opcodeOf w ≠ 0x00#6) (h1 : opcodeOf w ≠ 0x01#6) (h16 : opcodeOf w ≠ 0x10#6) :
    placeOf w = .opcode (opcodeOf w) := by
  simp [placeOf, h0, h1, h16]

/-- To show something of every word and its place, show it of each of the five kinds of place, with what the word's
fields hold there. -/
theorem placeOf_cases {P : Word → Place → Prop}
    (special : ∀ w, opcodeOf w = 0x00#6 → P w (.special (functOf w)))
    (regimm : ∀ w, opcodeOf w = 0x01#6 → P w (.regimm (rtOf w)))
    (cop0Move : ∀ w, opcodeOf w = 0x10#6 → coOf w ≠ 1#1 → P w (.cop0Move (rsOf w)))
    (cop0Function : ∀ w, opcodeOf w = 0x10#6 → coOf w = 1#1 → P w (.cop0Function (functOf w)))
    (opcode : ∀ w, opcodeOf w ≠ 0x00#6 → opcodeOf w ≠ 0x01#6 → opcodeOf w ≠ 0x10#6 → P w (.opcode (opcodeOf w)))
    (w : Word) : P w (placeOf w) := by
  unfold placeOf
  split_ifs with h0 h1 h16 hco
  · exact special w h0
  · exact regimm w h1
  · exact cop0Function w h16 hco
  · exact cop0Move w h16 hco
  · exact opcode w h0 h1 h16

end placeOf

/-- A word is decoded by its place. -/
theorem decode_eq_decodeAt (w : Word) : decode w = decodeAt w (placeOf w) := by
  refine placeOf_cases (P := fun w p => decode w = decodeAt w p) ?special ?regimm ?cop0Move ?cop0Function ?opcode w
  case special =>
    intro w h
    rw [decode, h]
    rfl
  case regimm =>
    intro w h
    rw [decode, h]
    rfl
  case cop0Move =>
    intro w h hco
    have hco : coOf w = 0#1 := (BitVec.eq_zero_or_eq_one _).resolve_right hco
    rw [decode, h]
    change decodeCop0 w (coOf w) = _
    rw [hco]
    rfl
  case cop0Function =>
    intro w h hco
    rw [decode, h]
    change decodeCop0 w (coOf w) = _
    rw [hco]
    rfl
  case opcode => exact fun _ _ _ _ => rfl

/-! ### A place and its bits -/

/-- The bits of a word's place hold that place's values. -/
theorem and_mask_placeOf (w : Word) : w &&& (placeOf w).mask = (placeOf w).pattern := by
  refine placeOf_cases (P := fun w p => w &&& p.mask = p.pattern) ?special ?regimm ?cop0Move ?cop0Function ?opcode w
  case special =>
    intro w h
    have kept := codeFormat_functMask (code20Of w) (functOf w)
    rwa [codeFormat_fields h] at kept
  case regimm =>
    intro w h
    have kept := iFormat_rtMask (opcodeOf w) (rsOf w) (rtOf w) (immOf w)
    rwa [iFormat_fields, h] at kept
  case cop0Move =>
    intro w h _
    have kept := cop0MoveWord_rsMask (rsOf w) (rtOf w) (rdOf w) (w.extractLsb' 0 11)
    rwa [cop0MoveWord_fields h] at kept
  case cop0Function =>
    intro w h hco
    have kept := cop0FunctionWord_functMask (w.extractLsb' 6 19) (functOf w)
    rwa [cop0FunctionWord_fields h hco] at kept
  case opcode =>
    intro w _ _ _
    have kept := jFormat_opcodeMask (opcodeOf w) (targetOf w)
    rwa [jFormat_fields] at kept

/-- A word that holds the values of another's place has that place. -/
theorem placeOf_eq_of_and_mask {w v : Word} (h : w &&& (placeOf v).mask = (placeOf v).pattern) :
    placeOf w = placeOf v := by
  refine placeOf_cases (P := fun _ p => w &&& p.mask = p.pattern → placeOf w = p)
    ?special ?regimm ?cop0Move ?cop0Function ?opcode v h
  case special =>
    intro v _ (h : w &&& 0xFC00003F = codeFormat 0 (functOf v))
    have ho : opcodeOf w = 0x00#6 := (field_of_and_mask h (by decide)).trans (opcodeOf_codeFormat _ _)
    have hf : functOf w = functOf v := (field_of_and_mask h (by decide)).trans (functOf_codeFormat _ _)
    rw [placeOf_special ho, hf]
  case regimm =>
    intro v _ (h : w &&& 0xFC1F0000 = iFormat 0x01#6 0 (rtOf v) 0)
    have ho : opcodeOf w = 0x01#6 := (field_of_and_mask h (by decide)).trans (opcodeOf_iFormat _ _ _ _)
    have ht : rtOf w = rtOf v := (field_of_and_mask h (by decide)).trans (rtOf_iFormat _ _ _ _)
    rw [placeOf_regimm ho, ht]
  case cop0Move =>
    intro v _ hco (h : w &&& 0xFFE00000 = cop0MoveFormat (rsOf v) 0 0)
    have ho : opcodeOf w = 0x10#6 := (field_of_and_mask h (by decide)).trans (opcodeOf_cop0MoveFormat _ _ _)
    have hs : rsOf w = rsOf v := (field_of_and_mask h (by decide)).trans (rsOf_cop0MoveFormat _ _ _)
    rw [coOf_eq_rsOf, ← hs, ← coOf_eq_rsOf] at hco
    rw [placeOf_cop0Move ho hco, hs]
  case cop0Function =>
    intro v _ _ (h : w &&& 0xFE00003F = cop0FunctionFormat (functOf v))
    have ho : opcodeOf w = 0x10#6 := (field_of_and_mask h (by decide)).trans (opcodeOf_cop0FunctionFormat _)
    have hco : coOf w = 1#1 := (field_of_and_mask h (by decide)).trans (coOf_cop0FunctionFormat _)
    have hf : functOf w = functOf v := (field_of_and_mask h (by decide)).trans (functOf_cop0FunctionFormat _)
    rw [placeOf_cop0Function ho hco, hf]
  case opcode =>
    intro v h0 h1 h16 (h : w &&& 0xFC000000 = jFormat (opcodeOf v) 0)
    have ho : opcodeOf w = opcodeOf v := (field_of_and_mask h (by decide)).trans (opcodeOf_jFormat _ _)
    rw [← ho] at h0 h1 h16 ⊢
    exact placeOf_opcode h0 h1 h16

/-! ### Rows are places -/

/-- The row stands for the place: its mask keeps the place's bits, and its pattern holds their values. -/
structure StandsAt (r : Row) (p : Place) : Prop where
  mask : r.mask = p.mask
  pattern : r.pattern = p.pattern

theorem StandsAt.selects_iff {r : Row} {p : Place} (h : StandsAt r p) (w : Word) :
    r.selects w ↔ w &&& p.mask = p.pattern := by
  unfold Row.selects
  rw [h.mask, h.pattern]

section row
variable {w : Word} {i : Instr}

theorem decodeSpecial_row {f : BitVec 6} (h : decodeSpecial w f = .instr i) : StandsAt i.row (.special f) := by
  unfold decodeSpecial at h
  split at h <;> cases h <;> exact ⟨rfl, rfl⟩

theorem decodeRegimm_row {rt : BitVec 5} (h : decodeRegimm w rt = .instr i) : StandsAt i.row (.regimm rt) := by
  unfold decodeRegimm at h
  split at h <;> cases h <;> exact ⟨rfl, rfl⟩

theorem decodeCop0Move_row {rs : BitVec 5} (h : decodeCop0Move w rs = .instr i) : StandsAt i.row (.cop0Move rs) := by
  unfold decodeCop0Move at h
  split at h <;> cases h <;> exact ⟨rfl, rfl⟩

theorem decodeCop0Function_row {f : BitVec 6} (h : decodeCop0Function f = .instr i) :
    StandsAt i.row (.cop0Function f) := by
  unfold decodeCop0Function at h
  split at h <;> cases h <;> exact ⟨rfl, rfl⟩

theorem decodeOpcode_row {o : BitVec 6} (h0 : o ≠ 0x00#6) (h1 : o ≠ 0x01#6) (h16 : o ≠ 0x10#6)
    (h : decodeOpcode w o = .instr i) : StandsAt i.row (.opcode o) := by
  unfold decodeOpcode at h
  split at h
  case h_1 => exact absurd rfl h0
  case h_2 => exact absurd rfl h1
  case h_17 => exact absurd rfl h16
  all_goals cases h
  all_goals exact ⟨rfl, rfl⟩

/-- The entry at a word's place is an instruction of the row that stands there. -/
theorem decodeAt_row (h : decodeAt w (placeOf w) = .instr i) : StandsAt i.row (placeOf w) := by
  refine placeOf_cases (P := fun w p => decodeAt w p = .instr i → StandsAt i.row p)
    ?special ?regimm ?cop0Move ?cop0Function ?opcode w h
  case special => exact fun _ _ => decodeSpecial_row
  case regimm => exact fun _ _ => decodeRegimm_row
  case cop0Move => exact fun _ _ _ => decodeCop0Move_row
  case cop0Function => exact fun _ _ _ => decodeCop0Function_row
  case opcode => exact fun _ => decodeOpcode_row

/-- A row stands at its own pattern's place. -/
theorem row_standsAt (i : Instr) : StandsAt i.row (placeOf i.row.pattern) := by
  cases i <;> simp only [Instr.row] <;> exact ⟨rfl, rfl⟩

/-- The entry of the maps there is an instruction of the row. -/
theorem decodeAt_pattern (w : Word) (i : Instr) :
    ∃ j : Instr, decodeAt w (placeOf i.row.pattern) = .instr j ∧ j.row = i.row := by
  generalize hr : i.row = r
  cases i <;> simp only [Instr.row] at hr <;> subst hr <;> exact ⟨_, rfl, rfl⟩

/-- What a word decodes to has a row the word selects. -/
theorem selects_of_decode (h : decode w = .instr i) : i.row.selects w := by
  rw [decode_eq_decodeAt] at h
  exact ((decodeAt_row h).selects_iff w).2 (and_mask_placeOf w)

/-- A word that selects a row decodes to an instruction of it. -/
theorem decode_of_selects (h : i.row.selects w) : ∃ j : Instr, decode w = .instr j ∧ j.row = i.row := by
  have hp : placeOf w = placeOf i.row.pattern := placeOf_eq_of_and_mask (((row_standsAt i).selects_iff w).1 h)
  rw [decode_eq_decodeAt, hp]
  exact decodeAt_pattern w i

/-- A word that selects no row of class insn or cpu is rejected, or it decodes to a reserved row. -/
theorem decode_of_selects_none (h : ∀ i : Instr, i.row.cls ≠ .reserved → ¬i.row.selects w) :
    (∃ why, decode w = .reject why) ∨ ∃ i : Instr, decode w = .instr i ∧ i.row.cls = .reserved := by
  cases hd : decode w with
  | reject why => exact .inl ⟨why, rfl⟩
  | instr i => exact .inr ⟨i, rfl, by_contra fun hc => h i hc (selects_of_decode hd)⟩

end row

end Sys2Proof.Laws
end

section
/-! What the encoder's words decode to, what the reserved and the coprocessor rows do, and the settling of the encoding
claims (30_encoding.md R150 to R175; 44_system.md R343, R344). -/

namespace Sys2Proof.Laws
open Sys2Proof.Machine Sys2Proof.Claims

/-! ### The place of each format -/

@[simp] theorem placeOf_rFormat (rs rt rd : RegNum) (sa : BitVec 5) (f : BitVec 6) :
    placeOf (rFormat rs rt rd sa f) = .special f := by
  simp [placeOf]

@[simp] theorem placeOf_codeFormat (code : BitVec 20) (f : BitVec 6) : placeOf (codeFormat code f) = .special f := by
  simp [placeOf]

@[simp] theorem placeOf_trapFormat (rs rt : RegNum) (code : BitVec 10) (f : BitVec 6) :
    placeOf (trapFormat rs rt code f) = .special f := by
  simp [placeOf]

@[simp] theorem placeOf_iFormat_regimm (rs rt : RegNum) (imm : Imm16) :
    placeOf (iFormat 0x01#6 rs rt imm) = .regimm rt := by
  simp [placeOf]

theorem placeOf_iFormat {o : BitVec 6} (h0 : o ≠ 0x00#6) (h1 : o ≠ 0x01#6) (h16 : o ≠ 0x10#6) (rs rt : RegNum)
    (imm : Imm16) : placeOf (iFormat o rs rt imm) = .opcode o := by
  simp [placeOf, h0, h1, h16]

theorem placeOf_jFormat {o : BitVec 6} (h0 : o ≠ 0x00#6) (h1 : o ≠ 0x01#6) (h16 : o ≠ 0x10#6) (target : BitVec 26) :
    placeOf (jFormat o target) = .opcode o := by
  simp [placeOf, h0, h1, h16]

theorem placeOf_cop0MoveFormat {rs : RegNum} (h : rs.extractLsb' 4 1 ≠ 1#1) (rt rd : RegNum) :
    placeOf (cop0MoveFormat rs rt rd) = .cop0Move rs := by
  simp [placeOf, coOf_eq_rsOf, h]

@[simp] theorem placeOf_cop0FunctionFormat (f : BitVec 6) : placeOf (cop0FunctionFormat f) = .cop0Function f := by
  simp [placeOf]

/-- Decoding the word of an instruction gives it back: the word stands at its instruction's entry, whose operands are
the fields that hold the instruction's. -/
theorem decode_encode (i : Instr) : decode (encode i) = .instr i := by
  rw [decode_eq_decodeAt]
  cases i
  all_goals
    simp only [encode, placeOf_rFormat, placeOf_codeFormat, placeOf_trapFormat, placeOf_iFormat_regimm, placeOf_iFormat,
      placeOf_jFormat, placeOf_cop0MoveFormat, placeOf_cop0FunctionFormat, ne_eq, BitVec.reduceEq,
      BitVec.reduceExtractLsb', not_false_eq_true]
    refine Eq.trans (b := .instr _) rfl ?_
    simp

/-! ### What a row's class says of its instructions (44_system.md R343, R344) -/

theorem exec_of_reserved {i : Instr} (h : i.row.cls = .reserved) (s : State) :
    exec i s = raise .reservedInstruction s := by
  cases i <;> cases h <;> rfl

theorem exec_of_cpu {i : Instr} (h : i.row.cls = .cpu) (s : State) : exec i s = raise .coprocessorUnusable s := by
  cases i <;> cases h <;> rfl

theorem reservedRows_cls : ∀ i ∈ reservedRows, i.row.cls = .reserved := by decide

theorem coprocessorRows_cls : ∀ row ∈ coprocessorRows, row.2.row.cls = .cpu := by decide

/-- The place of a coprocessor row is its opcode. -/
theorem decodeOpcode_coprocessorRows (w : Word) : ∀ row ∈ coprocessorRows, decodeOpcode w row.1 = .instr row.2 := by
  simp only [coprocessorRows, List.forall_mem_cons]
  exact ⟨rfl, rfl, rfl, rfl, rfl, rfl, rfl, rfl, rfl, rfl, rfl, by simp⟩

/-- A word of the coprocessor space decodes by its opcode alone. -/
theorem decode_jumpWord_coprocessor {row : BitVec 6 × Instr} (h : row ∈ coprocessorRows) (rest : BitVec 26) :
    decode (jumpWord row.1 rest) = .instr row.2 := by
  have ho : opcodeOf (jumpWord row.1 rest) = row.1 := opcodeOf_jFormat row.1 rest
  rw [decode, ho]
  exact decodeOpcode_coprocessorRows _ row h

/-- A word that selects no row of class insn or cpu raises ReservedInstruction, with a reserved row or without. -/
theorem execWord_of_selects_none {w : Word} (h : ∀ i : Instr, i.row.cls ≠ .reserved → ¬i.row.selects w) (s : State) :
    execWord w s = raise .reservedInstruction s := by
  unfold execWord
  rcases decode_of_selects_none h with ⟨why, hd⟩ | ⟨i, hd, hi⟩
  · rw [hd]
    rfl
  · rw [hd]
    exact exec_of_reserved hi s

end Sys2Proof.Laws

namespace Sys2Proof.Claims
open Sys2Proof.Machine Sys2Proof.Laws

/-- Settles O5: the encoder writes each operand in the field the decoder reads it from. -/
theorem decodeEncode : Obligations.DecodeEncode := by
  unfold Obligations.DecodeEncode
  intro i rest
  have h := decode_encode i
  exact ⟨h, by rw [decodeBytes_bytesOfWord, h]⟩

/-- Settles O6: a word selects a row exactly when it has the row's place in the opcode maps. -/
theorem decodeMatchesTable : Obligations.DecodeMatchesTable := by
  unfold Obligations.DecodeMatchesTable
  exact ⟨fun _ _ => selects_of_decode, fun _ _ => decode_of_selects, fun _ => decode_of_selects_none⟩

/-- Settles O35: a reserved row by its class, and any other reserved word because the decoder rejects it. -/
theorem reservedWords : Obligations.ReservedWords := by
  unfold Obligations.ReservedWords
  exact ⟨fun i hi s => ⟨_, exec_of_reserved (reservedRows_cls i hi) s, enters_enterException .reservedInstruction s⟩,
    fun w s h => ⟨_, execWord_of_selects_none h s, enters_enterException .reservedInstruction s⟩⟩

/-- Settles O36: the opcode alone gives the row, and its class the exception. -/
theorem coprocessorWords : Obligations.CoprocessorWords := by
  unfold Obligations.CoprocessorWords
  intro row h rest s
  exact ⟨decode_jumpWord_coprocessor h rest, _, exec_of_cpu (coprocessorRows_cls row h) s,
    enters_enterException .coprocessorUnusable s⟩

/-- Settles O7: each word is the one the encoder writes for its instruction. -/
theorem decodeKnownWords : Obligations.DecodeKnownWords := by
  unfold Obligations.DecodeKnownWords
  exact ⟨decode_encode (.addu 3 1 2), decode_encode (.sll 2 1 31), decode_encode (.addi 2 1 0x8000),
    decode_encode (.lw 2 0xFFFC 1), decode_encode (.j 0x100), decode_encode (.bltzal 31 4), decode_encode (.mtc0 1 12),
    decode_encode .eret⟩

end Sys2Proof.Claims
end

section
/-! The meanings of 40_alu.md (RegisterArithmetic, RegisterLogic, OverflowArithmetic, ImmediateForms, Shifts): the value
each writes, by integers or by bits, then one lemma a shape of rule, which asks for the entry of the opcode map, the
meaning, and the value. -/

namespace Sys2Proof.Machine
open Sys2Proof.Claims

/-! ### Values modulo 2^32 (00_scope.md R17; 30_encoding.md R158 to R160) -/

theorem toNat_eq_toInt_emod (v : Word) : (v.toNat : Int) = v.toInt % 4294967296 := by
  have hmod : v.toInt % 4294967296 = (v.toNat : Int) % 4294967296 := by
    rw [BitVec.toInt_eq_toNat_bmod]
    exact Int.bmod_emod
  have := v.isLt
  omega

theorem toInt_simm (imm : Imm16) : (simm imm).toInt = imm.toInt := BitVec.toInt_signExtend_of_le (by decide)

theorem toNat_simm (imm : Imm16) : ((simm imm).toNat : Int) = imm.toInt % 4294967296 := by
  rw [toNat_eq_toInt_emod, toInt_simm]

theorem getLsbD_uimm (imm : Imm16) {j : Nat} (h : j < 32) : (uimm imm).getLsbD j = imm.getLsbD j := by
  simp [uimm, h]

theorem toNat_upperImm (imm : Imm16) : (upperImm imm).toNat = imm.toNat * 65536 := by
  rw [upperImm, BitVec.toNat_append, BitVec.toNat_ofNat, Nat.shiftLeft_eq]
  exact Nat.or_zero _

theorem toNat_sub_emod (a b : Word) : ((a - b).toNat : Int) = ((a.toNat : Int) - b.toNat) % 4294967296 := by
  rw [BitVec.toNat_sub]
  have := b.isLt
  omega

theorem toNat_add_simm (a : Word) (imm : Imm16) :
    ((a + simm imm).toNat : Int) = (a.toInt + imm.toInt) % 4294967296 := by
  rw [toNat_eq_toInt_emod, BitVec.toInt_add, toInt_simm]
  exact Int.bmod_emod

/-! ### Comparisons (40_alu.md R208, R209) -/

theorem flag_decide (p : Prop) [Decidable p] : (p → flag (decide p) = 1) ∧ (¬p → flag (decide p) = 0) :=
  ⟨fun h => if_pos (decide_eq_true h), fun h => if_neg (by simpa using h)⟩

theorem flag_ltSigned (a b : Word) :
    (a.toInt < b.toInt → flag (ltSigned a b) = 1) ∧ (b.toInt ≤ a.toInt → flag (ltSigned a b) = 0) := by
  obtain ⟨hlt, hge⟩ := flag_decide (a.toInt < b.toInt)
  exact ⟨hlt, fun h => hge (Int.not_lt.2 h)⟩

theorem flag_ltUnsigned (a b : Word) :
    (a.toNat < b.toNat → flag (ltUnsigned a b) = 1) ∧ (b.toNat ≤ a.toNat → flag (ltUnsigned a b) = 0) := by
  obtain ⟨hlt, hge⟩ := flag_decide (a.toNat < b.toNat)
  exact ⟨hlt, fun h => hge (Nat.not_lt.2 h)⟩

/-! ### Overflow (40_alu.md R225): the model's tests are the library's -/

theorem signedOverflow_iff_not_fits (z : Int) : signedOverflow z = true ↔ ¬Fits z := by
  simp only [signedOverflow, Fits, Bool.or_eq_true, decide_eq_true_eq]
  omega

theorem addOverflows_eq_saddOverflow (a b : Word) : addOverflows a b = a.saddOverflow b := by
  rw [Bool.eq_iff_iff]
  simp only [addOverflows, signedOverflow, BitVec.saddOverflow, Bool.or_eq_true, decide_eq_true_eq]
  omega

theorem subOverflows_eq_ssubOverflow (a b : Word) : subOverflows a b = a.ssubOverflow b := by
  rw [Bool.eq_iff_iff]
  simp only [subOverflows, signedOverflow, BitVec.ssubOverflow, Bool.or_eq_true, decide_eq_true_eq]
  omega

theorem toInt_add_of_not_addOverflows {a b : Word} (h : ¬addOverflows a b = true) :
    (a + b).toInt = a.toInt + b.toInt :=
  BitVec.toInt_add_of_not_saddOverflow (addOverflows_eq_saddOverflow a b ▸ h)

theorem toInt_sub_of_not_subOverflows {a b : Word} (h : ¬subOverflows a b = true) :
    (a - b).toInt = a.toInt - b.toInt :=
  BitVec.toInt_sub_of_not_ssubOverflow (subOverflows_eq_ssubOverflow a b ▸ h)

/-- A sum overflows when the operands' signs agree and the wrapped sum's differs from them. -/
theorem addOverflows_iff_msb (a b : Word) : addOverflows a b = true ↔ a.msb = b.msb ∧ (a + b).msb ≠ a.msb := by
  rw [addOverflows_eq_saddOverflow, BitVec.saddOverflow_eq]
  simp

/-- A difference overflows when the operands' signs differ and the wrapped difference's is not the first's. -/
theorem subOverflows_iff_msb (a b : Word) : subOverflows a b = true ↔ a.msb ≠ b.msb ∧ (a - b).msb ≠ a.msb := by
  rw [subOverflows_eq_ssubOverflow, BitVec.ssubOverflow_eq]
  cases a.msb <;> simp

/-! ### Shifts, a bit at a time (30_encoding.md R163; 40_alu.md R218 to R223) -/

theorem variableShift_eq (v : Word) : variableShift v = v.toNat % 32 := by
  rw [variableShift, BitVec.extractLsb'_toNat]
  rfl

theorem getLsbD_shiftLeft_word (v : Word) (n j : Nat) (h : j < 32) : (v <<< n).getLsbD j = leftBit v n j := by
  rw [BitVec.getLsbD_shiftLeft, leftBit, decide_eq_true h, Bool.true_and, ← decide_not]
  simp only [Nat.not_lt]

theorem getLsbD_ushiftRight_word (v : Word) (n j : Nat) : (v >>> n).getLsbD j = rightBit v n j := by
  rw [BitVec.getLsbD_ushiftRight, rightBit, Nat.add_comm]

/-- From the bit that bit 31 reaches on, the sign is copied in. -/
theorem getLsbD_sshiftRight_word (v : Word) (n j : Nat) (h : j < 32) :
    (v.sshiftRight n).getLsbD j = arithmeticBit v n j := by
  rw [BitVec.getLsbD_sshiftRight, arithmeticBit, decide_eq_false (by omega), Bool.not_false, Bool.true_and]
  split
  · next hin => rw [show min (j + n) 31 = n + j by omega]
  · next hout => rw [show min (j + n) 31 = 31 by omega, BitVec.msb_eq_getLsbD_last]

end Sys2Proof.Machine

namespace Sys2Proof.Laws
open Sys2Proof.Claims

/-! ### Decoding whatever the ignored fields hold (30_encoding.md R164, R165) -/

/-- A word of SPECIAL decodes to its funct's entry, with the operands of its fields. -/
theorem decode_specialWord {f : BitVec 6} (build : RegNum → RegNum → RegNum → BitVec 5 → Instr)
    (h : ∀ w, decodeSpecial w f = .instr (build (rsOf w) (rtOf w) (rdOf w) (saOf w))) (rs rt rd : RegNum)
    (sa : BitVec 5) : decode (specialWord rs rt rd sa f) = .instr (build rs rt rd sa) := by
  change decode (rFormat rs rt rd sa f) = _
  rw [decode_eq_decodeAt, placeOf_rFormat, decodeAt, h]
  simp

/-- An immediate word whose opcode has no map of its own decodes to its opcode's entry. -/
theorem decode_immediateWord {o : BitVec 6} (ho : o ≠ 0x00#6 ∧ o ≠ 0x01#6 ∧ o ≠ 0x10#6)
    (build : RegNum → RegNum → Imm16 → Instr)
    (h : ∀ w, decodeOpcode w o = .instr (build (rsOf w) (rtOf w) (immOf w))) (rs rt : RegNum) (imm : Imm16) :
    decode (immediateWord o rs rt imm) = .instr (build rs rt imm) := by
  obtain ⟨h0, h1, h16⟩ := ho
  change decode (iFormat o rs rt imm) = _
  rw [decode_eq_decodeAt, placeOf_iFormat h0 h1 h16, decodeAt, h]
  simp

end Sys2Proof.Laws

namespace Sys2Proof.Claims
open Sys2Proof.Machine Sys2Proof.Laws

/-! ### One lemma a shape of rule -/

theorem completes_of_writeAndComplete {i : Instr} {d : RegNum} {v : Word} {s : State}
    (h : exec i s = writeAndComplete d v s) : Completes i s (WritesRegister d v s) :=
  ⟨_, h, writesRegister_retire s d v⟩

theorem registerRule_of {f : BitVec 6} {build : RegNum → RegNum → RegNum → Instr} {F : Word → Word → Word → Prop}
    (value : Word → Word → Word) (hdecode : ∀ w, decodeSpecial w f = .instr (build (rdOf w) (rsOf w) (rtOf w)))
    (hexec : ∀ rd rs rt s, exec (build rd rs rt) s = writeAndComplete rd (value (readReg s rs) (readReg s rt)) s)
    (hvalue : ∀ a b, F a b (value a b)) : RegisterRule f build F :=
  fun rs rt rd sa s => ⟨decode_specialWord (fun rs rt rd _ => build rd rs rt) hdecode rs rt rd sa, _, hvalue _ _,
    completes_of_writeAndComplete (hexec rd rs rt s)⟩

theorem immediateRule_of {o : BitVec 6} {build : RegNum → RegNum → Imm16 → Instr} {F : Word → Imm16 → Word → Prop}
    (ho : o ≠ 0x00#6 ∧ o ≠ 0x01#6 ∧ o ≠ 0x10#6) (value : Word → Imm16 → Word)
    (hdecode : ∀ w, decodeOpcode w o = .instr (build (rtOf w) (rsOf w) (immOf w)))
    (hexec : ∀ rt rs imm s, exec (build rt rs imm) s = writeAndComplete rt (value (readReg s rs) imm) s)
    (hvalue : ∀ a imm, F a imm (value a imm)) : ImmediateRule o build F :=
  fun rs rt imm s => ⟨decode_immediateWord ho (fun rs rt => build rt rs) hdecode rs rt imm, _, hvalue _ _,
    completes_of_writeAndComplete (hexec rt rs imm s)⟩

section shifts
variable {f : BitVec 6} {bit : Word → Nat → Nat → Bool} {shift : Word → Nat → Word}
  (hbit : ∀ v n, ∀ j < 32, (shift v n).getLsbD j = bit v n j)
include hbit

theorem shiftRule_of {build : RegNum → RegNum → BitVec 5 → Instr}
    (hdecode : ∀ w, decodeSpecial w f = .instr (build (rdOf w) (rtOf w) (saOf w)))
    (hexec : ∀ rd rt sa s, exec (build rd rt sa) s = writeAndComplete rd (shift (readReg s rt) sa.toNat) s) :
    ShiftRule f build bit :=
  fun rs rt rd sa s => ⟨decode_specialWord (fun _ rt rd sa => build rd rt sa) hdecode rs rt rd sa, _, hbit _ _,
    completes_of_writeAndComplete (hexec rd rt sa s)⟩

theorem variableShiftRule_of {build : RegNum → RegNum → RegNum → Instr}
    (hdecode : ∀ w, decodeSpecial w f = .instr (build (rdOf w) (rtOf w) (rsOf w)))
    (hexec : ∀ rd rt rs s,
      exec (build rd rt rs) s = writeAndComplete rd (shift (readReg s rt) (variableShift (readReg s rs))) s) :
    VariableShiftRule f build bit := fun rs rt rd sa s => by
  refine ⟨decode_specialWord (fun rs rt rd _ => build rd rt rs) hdecode rs rt rd sa, _, ?_,
    completes_of_writeAndComplete (hexec rd rt rs s)⟩
  rw [variableShift_eq]
  exact hbit _ _

end shifts

theorem overflowRule_of {i : Instr} {d : RegNum} {z : Int} {v : Word} {s : State}
    (hexec : exec i s = writeUnlessOverflow (signedOverflow z) d v s)
    (hvalue : ¬signedOverflow z = true → v.toInt = z) :
    OverflowRule i d z s := by
  refine ⟨fun hfits => ?_, fun hfits => ?_⟩
  · have h : ¬signedOverflow z = true := fun h => (signedOverflow_iff_not_fits z).1 h hfits
    exact ⟨v, hvalue h, completes_of_writeAndComplete (hexec.trans (if_neg h))⟩
  · have h := (signedOverflow_iff_not_fits z).2 hfits
    exact ⟨_, hexec.trans (if_pos h), enters_enterException .overflow s⟩

/-! ### The settling -/

/-- Settles O9: each is one register write, of a sum, a difference or a comparison's flag. -/
theorem registerArithmetic : Obligations.RegisterArithmetic := by
  unfold Obligations.RegisterArithmetic
  refine ⟨?addu, ?subu, ?slt, ?sltu⟩
  case addu => exact registerRule_of (fun a b => a + b) (fun _ => rfl) (fun _ _ _ _ => rfl) BitVec.toNat_add
  case subu => exact registerRule_of (fun a b => a - b) (fun _ => rfl) (fun _ _ _ _ => rfl) toNat_sub_emod
  case slt =>
    exact registerRule_of (fun a b => flag (ltSigned a b)) (fun _ => rfl) (fun _ _ _ _ => rfl) flag_ltSigned
  case sltu =>
    exact registerRule_of (fun a b => flag (ltUnsigned a b)) (fun _ => rfl) (fun _ _ _ _ => rfl) flag_ltUnsigned

/-- Settles O10: each is one register write, of a bitwise operation. -/
theorem registerLogic : Obligations.RegisterLogic := by
  unfold Obligations.RegisterLogic
  refine ⟨?and, ?or, ?xor, ?nor⟩
  case and =>
    exact registerRule_of (fun a b => a &&& b) (fun _ => rfl) (fun _ _ _ _ => rfl) fun _ _ _ _ => BitVec.getLsbD_and
  case or =>
    exact registerRule_of (fun a b => a ||| b) (fun _ => rfl) (fun _ _ _ _ => rfl) fun _ _ _ _ => BitVec.getLsbD_or
  case xor =>
    exact registerRule_of (fun a b => a ^^^ b) (fun _ => rfl) (fun _ _ _ _ => rfl) fun _ _ _ _ => BitVec.getLsbD_xor
  case nor =>
    refine registerRule_of (fun a b => ~~~(a ||| b)) (fun _ => rfl) (fun _ _ _ _ => rfl) fun a b j hj => ?_
    rw [BitVec.getLsbD_not, BitVec.getLsbD_or, decide_eq_true hj, Bool.true_and]

/-- Settles O11: the model tests the exact result, whose overflow the library gives by the signs. -/
theorem overflowArithmetic : Obligations.OverflowArithmetic := by
  unfold Obligations.OverflowArithmetic
  refine ⟨fun rs rt rd sa s => ⟨decode_specialWord (fun rs rt rd _ => .add rd rs rt) (fun _ => rfl) rs rt rd sa, ?add⟩,
    fun rs rt rd sa s => ⟨decode_specialWord (fun rs rt rd _ => .sub rd rs rt) (fun _ => rfl) rs rt rd sa, ?sub⟩,
    fun rs rt imm s => ⟨decode_immediateWord (by decide) (fun rs rt => .addi rt rs) (fun _ => rfl) rs rt imm, ?addi⟩,
    fun a b => ⟨?sum, ?difference⟩⟩
  case add => exact overflowRule_of rfl toInt_add_of_not_addOverflows
  case sub => exact overflowRule_of rfl toInt_sub_of_not_subOverflows
  case addi =>
    rw [← toInt_simm]
    exact overflowRule_of rfl toInt_add_of_not_addOverflows
  case sum => exact (signedOverflow_iff_not_fits _).symm.trans (addOverflows_iff_msb a b)
  case difference => exact (signedOverflow_iff_not_fits _).symm.trans (subOverflows_iff_msb a b)

/-- Settles O12: each is one register write, of a value of the extended immediate. -/
theorem immediateForms : Obligations.ImmediateForms := by
  unfold Obligations.ImmediateForms
  refine ⟨?addiu, ?slti, ?sltiu, ?andi, ?ori, ?xori, ?lui⟩
  case addiu =>
    exact immediateRule_of (by decide) (fun a imm => a + simm imm) (fun _ => rfl) (fun _ _ _ _ => rfl) toNat_add_simm
  case slti =>
    refine immediateRule_of (by decide) (fun a imm => flag (ltSigned a (simm imm))) (fun _ => rfl)
      (fun _ _ _ _ => rfl) fun a imm => ?_
    rw [← toInt_simm]
    exact flag_ltSigned a (simm imm)
  case sltiu =>
    refine immediateRule_of (by decide) (fun a imm => flag (ltUnsigned a (simm imm))) (fun _ => rfl)
      (fun _ _ _ _ => rfl) fun a imm => ?_
    rw [← toNat_simm, Int.ofNat_lt, Int.ofNat_le]
    exact flag_ltUnsigned a (simm imm)
  case andi =>
    refine immediateRule_of (by decide) (fun a imm => a &&& uimm imm) (fun _ => rfl) (fun _ _ _ _ => rfl)
      fun a imm j hj => ?_
    rw [BitVec.getLsbD_and, getLsbD_uimm imm hj]
  case ori =>
    refine immediateRule_of (by decide) (fun a imm => a ||| uimm imm) (fun _ => rfl) (fun _ _ _ _ => rfl)
      fun a imm j hj => ?_
    rw [BitVec.getLsbD_or, getLsbD_uimm imm hj]
  case xori =>
    refine immediateRule_of (by decide) (fun a imm => a ^^^ uimm imm) (fun _ => rfl) (fun _ _ _ _ => rfl)
      fun a imm j hj => ?_
    rw [BitVec.getLsbD_xor, getLsbD_uimm imm hj]
  case lui =>
    exact fun rs rt imm s => ⟨decode_immediateWord (by decide) (fun _ => .lui) (fun _ => rfl) rs rt imm, _,
      toNat_upperImm imm, completes_of_writeAndComplete rfl⟩

/-- Settles O13: three shifts, each by the sa field and by the low bits of a register. -/
theorem shifts : Obligations.Shifts := by
  unfold Obligations.Shifts
  have right (v : Word) (n j : Nat) (_ : j < 32) := getLsbD_ushiftRight_word v n j
  refine ⟨?sll, ?srl, ?sra, ?sllv, ?srlv, ?srav⟩
  case sll => exact shiftRule_of getLsbD_shiftLeft_word (fun _ => rfl) (fun _ _ _ _ => rfl)
  case srl => exact shiftRule_of right (fun _ => rfl) (fun _ _ _ _ => rfl)
  case sra => exact shiftRule_of getLsbD_sshiftRight_word (fun _ => rfl) (fun _ _ _ _ => rfl)
  case sllv => exact variableShiftRule_of getLsbD_shiftLeft_word (fun _ => rfl) (fun _ _ _ _ => rfl)
  case srlv => exact variableShiftRule_of right (fun _ => rfl) (fun _ _ _ _ => rfl)
  case srav => exact variableShiftRule_of getLsbD_sshiftRight_word (fun _ => rfl) (fun _ _ _ _ => rfl)

end Sys2Proof.Claims
end

section
/-! The meanings of 41_muldiv.md: which steps change HI or LO (HiLoWriters), and what each instruction writes there
(Multiply, Divide, HiLoMoves), by one lemma for every write of the pair. -/

namespace Sys2Proof.Machine
open Sys2Proof.Claims

@[simp] theorem returnFromException_hi (s : State) : (returnFromException s).hi = s.hi := rfl
@[simp] theorem returnFromException_lo (s : State) : (returnFromException s).lo = s.lo := rfl

/-! ### The writers of HI and LO (41_muldiv.md R240) -/

/-- The model's list of writers holds only the six of 41_muldiv.md R240. -/
theorem eq_of_writesHiLo {i : Instr} (h : writesHiLo i = true) :
    (∃ rs rt, i = .mult rs rt ∨ i = .multu rs rt ∨ i = .div rs rt ∨ i = .divu rs rt) ∨
      ∃ rs, i = .mthi rs ∨ i = .mtlo rs := by
  cases i
  case mult rs rt | multu rs rt | div rs rt | divu rs rt => exact .inl ⟨rs, rt, by simp⟩
  case mthi rs | mtlo rs => exact .inr ⟨rs, by simp⟩
  all_goals cases h

/-- An instruction that is no writer leaves HI and LO alone. -/
theorem Effect.sameHiLo_or_writes {i : Instr} {s u : State} (he : Effect i s u) :
    SameHiLo s u ∨ writesHiLo i = true := by
  cases he with
  | hiLo hi lo draws hw _ => exact .inr hw
  | register d v => exact .inl ⟨by simp, by simp⟩
  | branch target d v _ _ => exact .inl ⟨by simp, by simp⟩
  | store w va pa v _ _ _ => exact .inl ⟨by simp, by simp⟩
  | cop0 rt n _ => exact .inl ⟨by simp [cop0Write], by simp [cop0Write]⟩
  | eret _ _ => exact .inl ⟨by simp, by simp⟩
  | exception e _ => exact .inl ⟨by simp, by simp⟩

/-! ### Products (41_muldiv.md R241, R242): 64 bits hold them exactly -/

theorem toInt_ofInt_product (a b : Word) : (BitVec.ofInt 64 (a.toInt * b.toInt)).toInt = a.toInt * b.toInt := by
  have lower : -2 ^ 62 ≤ a.toInt * b.toInt := BitVec.le_toInt_mul_toInt
  have upper : a.toInt * b.toInt ≤ 2 ^ 62 := BitVec.toInt_mul_toInt_le
  exact BitVec.toInt_ofInt_eq_self (by decide) (by omega) (by omega)

theorem toNat_ofNat_product (a b : Word) : (BitVec.ofNat 64 (a.toNat * b.toNat)).toNat = a.toNat * b.toNat :=
  Nat.mod_eq_of_lt BitVec.toNat_mul_toNat_lt

/-! ### Quotients (41_muldiv.md R243, R244) -/

theorem toInt_eq_zero_iff (v : Word) : v.toInt = 0 ↔ v = 0 := BitVec.toInt_inj (y := 0)

theorem toNat_eq_zero_iff (v : Word) : v.toNat = 0 ↔ v = 0 := BitVec.toNat_inj (y := 0)

/-- The remainder of a division that truncates toward zero is zero or has the dividend's sign. -/
theorem tmod_mul_self_nonneg (a b : Int) : 0 ≤ a.tmod b * a := by
  rcases Int.le_total 0 a with h | h
  · exact Int.mul_nonneg (Int.tmod_nonneg b h) h
  · have hneg : 0 ≤ (-a).tmod b * -a := Int.mul_nonneg (Int.tmod_nonneg b (by omega)) (by omega)
    rwa [Int.neg_tmod, Int.neg_mul_neg] at hneg

theorem natAbs_tmod_lt (a : Int) {b : Int} (h : b ≠ 0) : (a.tmod b).natAbs < b.natAbs := by
  rw [Int.natAbs_tmod]
  exact Nat.mod_lt _ (Int.natAbs_pos.2 h)

/-- DIV by a divisor other than 0: the remainder the model computes is the truncating one. -/
theorem exec_div_of_ne_zero {s : State} {rt : RegNum} (rs : RegNum) (h : readReg s rt ≠ 0) :
    exec (.div rs rt) s = complete (writeQuotient s ((readReg s rs).toInt.tdiv (readReg s rt).toInt)
      ((readReg s rs).toInt.tmod (readReg s rt).toInt)) := by
  rw [Int.tmod_def, Int.mul_comm]
  exact congrArg complete (if_neg fun hb => h ((toInt_eq_zero_iff _).1 hb))

/-- DIVU by a divisor other than 0: both results fit, and are the words' quotient and remainder. -/
theorem exec_divu_of_ne_zero {s : State} {rt : RegNum} (rs : RegNum) (h : readReg s rt ≠ 0) :
    exec (.divu rs rt) s =
      complete ((s.setLo (readReg s rs / readReg s rt)).setHi (readReg s rs % readReg s rt)) := by
  rw [BitVec.udiv_def, BitVec.umod_def, ← BitVec.ofInt_natCast, ← BitVec.ofInt_natCast]
  exact congrArg complete (if_neg fun hb => h ((toNat_eq_zero_iff _).1 hb))

/-- Either division by 0 draws both results (41_muldiv.md R249). -/
theorem exec_divide_of_eq_zero {s : State} {rs rt : RegNum} {i : Instr} (hi : i = .div rs rt ∨ i = .divu rs rt)
    (h : readReg s rt = 0) : exec i s = complete (writeDrawnQuotient s) := by
  rcases hi with rfl | rfl
  · exact congrArg complete (if_pos ((toInt_eq_zero_iff _).2 h))
  · exact congrArg complete (if_pos ((toNat_eq_zero_iff _).2 h))

end Sys2Proof.Machine

namespace Sys2Proof.Claims
open Sys2Proof.Machine Sys2Proof.Laws

/-- Settles O45: an entry and the tick leave HI and LO alone, and an instruction that changes them is a writer. -/
theorem hiLoWriters : Obligations.HiLoWriters := by
  unfold Obligations.HiLoWriters
  intro s t hstep hchanged
  obtain ⟨u, rfl, ⟨e, rfl⟩ | ⟨i, fetches, heffect⟩⟩ := step_enters_or_runs hstep
  · exact absurd ⟨rfl, rfl⟩ hchanged
  · rcases heffect.sameHiLo_or_writes with hsame | hwrites
    · exact absurd hsame hchanged
    · exact ⟨i, fetches, eq_of_writesHiLo hwrites⟩

/-- An instruction that completes with HI, LO and the draws alone changed. -/
theorem completes_of_hiLo {i : Instr} {s : State} {hi lo : Word} {n : Nat}
    (h : exec i s = complete (((s.setHi hi).setLo lo).setDraws n)) :
    Completes i s fun t => WritesHiLo hi lo s t ∧ t.draws = n :=
  ⟨_, h, writesHiLo_retire s hi lo n, retire_draws _⟩

/-- An instruction that completes with a product written: HI and LO are the product's halves. -/
theorem completes_of_writeProduct {i : Instr} {s : State} {p : BitVec 64}
    (h : exec i s = complete (writeProduct s p)) :
    ∃ hi lo : Word, (hi ++ lo : BitVec 64) = p ∧ Completes i s fun t => WritesHiLo hi lo s t ∧ t.draws = s.draws :=
  ⟨_, _, BitVec.extractLsb'_append_extractLsb' (w := 32) (len := 32), completes_of_hiLo h⟩

/-- Settles O14: HI and LO are the halves of the 64-bit product, which holds the exact one. -/
theorem multiply : Obligations.Multiply := by
  unfold Obligations.Multiply
  intro rs rt rd sa s
  refine ⟨decode_specialWord (fun rs rt _ _ => .mult rs rt) (fun _ => rfl) rs rt rd sa,
    decode_specialWord (fun rs rt _ _ => .multu rs rt) (fun _ => rfl) rs rt rd sa, ?mult, ?multu⟩
  case mult =>
    obtain ⟨hi, lo, hproduct, hcompletes⟩ := completes_of_writeProduct (i := .mult rs rt) (s := s) rfl
    exact ⟨hi, lo, by rw [hproduct, toInt_ofInt_product], hcompletes⟩
  case multu =>
    obtain ⟨hi, lo, hproduct, hcompletes⟩ := completes_of_writeProduct (i := .multu rs rt) (s := s) rfl
    exact ⟨hi, lo, by rw [hproduct, toNat_ofNat_product], hcompletes⟩

/-- Settles O15: the laws of truncating division for DIV, of the words' division for DIVU, and two draws for a divisor
of 0. -/
theorem divide : Obligations.Divide := by
  unfold Obligations.Divide
  intro rs rt rd sa s
  refine ⟨decode_specialWord (fun rs rt _ _ => .div rs rt) (fun _ => rfl) rs rt rd sa,
    decode_specialWord (fun rs rt _ _ => .divu rs rt) (fun _ => rfl) rs rt rd sa, fun hdivisor => ⟨?div, ?divu⟩,
    fun hzero i hi => ?zero⟩
  case div =>
    have hne : (readReg s rt).toInt ≠ 0 := fun h => hdivisor ((toInt_eq_zero_iff _).1 h)
    exact ⟨_, _, (Int.tdiv_mul_add_tmod _ _).symm, natAbs_tmod_lt _ hne, tmod_mul_self_nonneg _ _,
      completes_of_hiLo (exec_div_of_ne_zero rs hdivisor)⟩
  case divu =>
    refine ⟨readReg s rs / readReg s rt, readReg s rs % readReg s rt, ?_, ?_,
      completes_of_hiLo (exec_divu_of_ne_zero rs hdivisor)⟩
    · rw [BitVec.toNat_udiv, BitVec.toNat_umod, Nat.div_add_mod']
    · rw [BitVec.toNat_umod]
      exact Nat.mod_lt _ (BitVec.toNat_pos_of_ne_zero hdivisor)
  case zero =>
    obtain ⟨t, hexec, hwrites, hdraws⟩ := completes_of_hiLo (exec_divide_of_eq_zero hi hzero)
    exact ⟨s.draws, s.draws + 1, by omega, by omega, by omega, t, hexec, hwrites, by omega, by omega⟩

/-- Settles O16: MFHI and MFLO are one register write, MTHI and MTLO one write of the pair that keeps the other half. -/
theorem hiLoMoves : Obligations.HiLoMoves := by
  unfold Obligations.HiLoMoves
  intro rs rt rd sa s
  refine ⟨⟨?mfhi, completes_of_writeAndComplete rfl⟩, ⟨?mflo, completes_of_writeAndComplete rfl⟩,
    ⟨?mthi, completes_of_hiLo rfl⟩, ?mtlo, completes_of_hiLo rfl⟩
  case mfhi => exact decode_specialWord (fun _ _ rd _ => .mfhi rd) (fun _ => rfl) rs rt rd sa
  case mflo => exact decode_specialWord (fun _ _ rd _ => .mflo rd) (fun _ => rfl) rs rt rd sa
  case mthi => exact decode_specialWord (fun rs _ _ _ => .mthi rs) (fun _ => rfl) rs rt rd sa
  case mtlo => exact decode_specialWord (fun rs _ _ _ => .mtlo rs) (fun _ => rfl) rs rt rd sa

end Sys2Proof.Claims
end

section
/-! The step of a machine that fetches a word (42_branch.md R260; 60_exceptions.md R436), and the settling of
StepRunsDecodedInstruction. -/

namespace Sys2Proof.Machine

/-- An aligned pc that translates into RAM fetches the four bytes there, big-endian (20_memory.md R100). -/
theorem fetch_ram {s : State} {pa : Word} (ha : s.pc.toNat % 4 = 0)
    (ht : translateAddress s.params s.pc .fetch = .ok pa) (hram : pa.toNat < s.params.ramSize) :
    fetch s = .ok (s.ram.readWide pa.toNat .word) := by
  rw [fetch_aligned ha, ht, ← busRead_ram hram]
  rfl

/-- The word of four bytes of memory decodes as the bytes do (30_encoding.md R150). -/
theorem Memory.decodeBytes_readWide_word (m : Memory) (a : Nat) :
    decodeBytes [m.read a, m.read (a + 1), m.read (a + 2), m.read (a + 3)] = (decode (m.readWide a .word), []) := rfl

section fetched
variable {s : State} {w : Word}

/-- A step that fetches a word does what the word does, and ticks. -/
theorem step_of_fetch_ok (hs : s.refused = false) (hi : interruptTaken s = false) (h : fetch s = .ok w) :
    step s = thenTick (execWord w s) := by
  unfold step
  rw [if_neg (by simp [hs]), if_neg (by simp [hi]), h]
  rfl

theorem execWord_instr {i : Instr} (h : decode w = .instr i) : execWord w s = exec i s := by
  unfold execWord
  rw [h]

theorem execWord_reject {why : DecodeReject} (h : decode w = .reject why) :
    execWord w s = raise .reservedInstruction s := by
  unfold execWord
  rw [h]
  rfl

end fetched

end Sys2Proof.Machine

namespace Sys2Proof.Claims
open Sys2Proof.Machine

/-- Settles O8: the fetch gives the word of the four bytes, the step does what that word does, and the tick follows a
next state alone. -/
theorem stepRunsDecodedInstruction : Obligations.StepRunsDecodedInstruction := by
  unfold Obligations.StepRunsDecodedInstruction
  refine ⟨fun s pa i hs hi ha ht hram hbytes => ?runs, fun s w why hs hi hfetch hdecode => ?reserved⟩
  case runs =>
    rw [Memory.decodeBytes_readWide_word] at hbytes
    have hdecode : decode (s.ram.readWide pa.toNat .word) = .instr i := congrArg Prod.fst hbytes
    have hstep : step s = thenTick (exec i s) := by
      rw [step_of_fetch_ok hs hi (fetch_ram ha ht hram), execWord_instr hdecode]
    exact ⟨fun u hexec => by rw [hstep, hexec, thenTick], fun r hexec => by rw [hstep, hexec, thenTick]⟩
  case reserved =>
    refine ⟨_, enters_enterException .reservedInstruction s, ?_⟩
    rw [step_of_fetch_ok hs hi hfetch, execWord_reject hdecode, raise_eq, thenTick]

end Sys2Proof.Claims
end

section
/-! The branches and jumps of 42_branch.md (ConditionalBranches, JumpsAndLinks, ControlInDelaySlot): their words, their
targets by integer arithmetic, and one lemma for every commit of the slot. -/

namespace Sys2Proof.Machine

/-! ### Targets (30_encoding.md R161, R162) -/

/-- The target of a taken branch is the exact sum, modulo 2^32. -/
theorem branchTarget_eq_ofInt (pc : Word) (imm : Imm16) :
    branchTarget pc imm = BitVec.ofInt 32 (pc.toInt + 4 + 4 * imm.toInt) := by
  have offset : simm imm <<< 2 = BitVec.ofInt 32 (4 * imm.toInt) := by
    rw [BitVec.shiftLeft_eq_mul_twoPow, BitVec.ofInt_mul, BitVec.mul_comm]
    rfl
  rw [branchTarget, offset, BitVec.ofInt_add, BitVec.ofInt_add, BitVec.ofInt_toInt]
  rfl

/-- The address after the delay slot is the exact sum, modulo 2^32. -/
theorem add_eight_eq_ofInt (pc : Word) : pc + 8 = BitVec.ofInt 32 (pc.toInt + 8) := by
  rw [BitVec.ofInt_add, BitVec.ofInt_toInt]
  rfl

/-- The target of a jump, by its region's number and its word's. -/
theorem jumpTarget_eq_ofNat (pc : Word) (target : BitVec 26) :
    jumpTarget pc target = BitVec.ofNat 32 ((pc + 4).toNat / 268435456 * 268435456 + target.toNat * 4) := by
  unfold jumpTarget
  generalize pc + 4 = slot
  have hslot := slot.isLt
  have htarget := target.isLt
  apply BitVec.eq_of_toNat_eq
  rw [BitVec.toNat_append, BitVec.toNat_append, ← Nat.shiftLeft_add_eq_or_of_lt (BitVec.isLt _),
    ← Nat.shiftLeft_add_eq_or_of_lt (BitVec.isLt _), BitVec.extractLsb'_toNat, BitVec.toNat_ofNat, BitVec.toNat_ofNat,
    Nat.shiftRight_eq_div_pow, Nat.shiftLeft_eq, Nat.shiftLeft_eq]
  omega

/-! ### Comparisons with 0 (42_branch.md R272 to R277) -/

theorem ltSigned_zero_iff (a : Word) : ltSigned a 0 = true ↔ a.toInt < 0 := decide_eq_true_iff

theorem zero_ltSigned_iff (a : Word) : ltSigned 0 a = true ↔ 0 < a.toInt := decide_eq_true_iff

theorem not_ltSigned_zero_iff (a : Word) : (!ltSigned a 0) = true ↔ 0 ≤ a.toInt := by
  rw [Bool.not_eq_true', Bool.eq_false_iff, Ne, ltSigned_zero_iff, Int.not_lt]

theorem not_zero_ltSigned_iff (a : Word) : (!ltSigned 0 a) = true ↔ a.toInt ≤ 0 := by
  rw [Bool.not_eq_true', Bool.eq_false_iff, Ne, zero_ltSigned_iff, Int.not_lt]

end Sys2Proof.Machine

namespace Sys2Proof.Laws
open Sys2Proof.Claims

/-! ### The words of branches and jumps (30_encoding.md R164, R166) -/

/-- A word of REGIMM decodes to the entry its rt field selects. -/
theorem decode_regimmWord {rt : RegNum} (build : RegNum → Imm16 → Instr)
    (h : ∀ w, decodeRegimm w rt = .instr (build (rsOf w) (immOf w))) (rs : RegNum) (imm : Imm16) :
    decode (immediateWord 0x01 rs rt imm) = .instr (build rs imm) := by
  change decode (iFormat 0x01#6 rs rt imm) = _
  rw [decode_eq_decodeAt, placeOf_iFormat_regimm, decodeAt, h]
  simp

/-- A jump word whose opcode has no map of its own decodes to its opcode's entry. -/
theorem decode_jumpWord {o : BitVec 6} (ho : o ≠ 0x00#6 ∧ o ≠ 0x01#6 ∧ o ≠ 0x10#6) (build : BitVec 26 → Instr)
    (h : ∀ w, decodeOpcode w o = .instr (build (targetOf w))) (target : BitVec 26) :
    decode (jumpWord o target) = .instr (build target) := by
  obtain ⟨h0, h1, h16⟩ := ho
  change decode (jFormat o target) = _
  rw [decode_eq_decodeAt, placeOf_jFormat h0 h1 h16, decodeAt, h]
  simp

end Sys2Proof.Laws

namespace Sys2Proof.Claims
open Sys2Proof.Machine Sys2Proof.Laws

/-- The model's target of a conditional branch is the rule's. -/
theorem conditionalTarget_eq_branchTargetOf (pc : Word) (imm : Imm16) {taken : Bool} {p : Prop} [Decidable p]
    (hp : taken = true ↔ p) : conditionalTarget pc imm taken = branchTargetOf pc imm p := by
  unfold conditionalTarget branchTargetOf
  rw [branchTarget_eq_ofInt, add_eight_eq_ofInt]
  exact if_congr hp rfl rfl

section outsideDelaySlot
variable {i : Instr} {s : State} {target : Word} {d : RegNum} {v : Word} (hslot : s.pend.valid = false)
include hslot

/-- Outside a delay slot an instruction that commits a branch completes; one without a link writes register 0. -/
theorem completes_of_branchTo (hexec : exec i s = branchTo target (writeReg s d v)) :
    Completes i s (Branches target d v s) := by
  obtain ⟨t, ht, hbranches⟩ := branches_branchTo s target d v hslot
  exact ⟨t, hexec.trans ht, hbranches⟩

/-- One that branches on a condition goes where the rule says. -/
theorem completes_of_conditionalTarget {imm : Imm16} {taken : Bool} {p : Prop} [Decidable p] (hp : taken = true ↔ p)
    (hexec : exec i s = branchTo (conditionalTarget s.pc imm taken) (writeReg s d v)) :
    Completes i s (Branches (branchTargetOf s.pc imm p) d v s) := by
  rw [conditionalTarget_eq_branchTargetOf s.pc imm hp] at hexec
  exact completes_of_branchTo hslot hexec

end outsideDelaySlot

/-- What a commit of the slot can do after a link write, which leaves the slot alone (42_branch.md R265). -/
theorem branchTo_writeReg_cases (target : Word) (d : RegNum) (v : Word) (s : State) :
    (s.pend.valid = true ∧ branchTo target (writeReg s d v) = .refused .delaySlotControl) ∨
      (s.pend.valid = false ∧ ∃ t, branchTo target (writeReg s d v) = .next t) := by
  rw [← writeReg_pend s d v]
  exact (branchTo_cases target (writeReg s d v)).imp_right fun ⟨hslot, ht⟩ => ⟨hslot, _, ht⟩

/-- What a branch, jump or ERET can do: refuse in a delay slot, else end in a next state (42_branch.md R265). -/
theorem exec_controlTransfer {i : Instr} (h : ControlTransfer i) (s : State) :
    (s.pend.valid = true ∧ exec i s = .refused .delaySlotControl) ∨
      (s.pend.valid = false ∧ ∃ t, exec i s = .next t) := by
  cases h
  case beq | bne | blez | bgtz | bltz | bgez | j | jr => exact branchTo_writeReg_cases _ 0 0 s
  case bltzal | bgezal | jal | jalr => exact branchTo_writeReg_cases _ _ _ s
  case eret =>
    cases hslot : s.pend.valid
    · exact .inr ⟨rfl, _, if_neg (by simp [hslot])⟩
    · exact .inl ⟨rfl, if_pos hslot⟩

/-- Settles O25: each is a commit of the slot with no link, and its test is the rule's condition. -/
theorem conditionalBranches : Obligations.ConditionalBranches := by
  unfold Obligations.ConditionalBranches
  intro rs rt imm s
  refine ⟨⟨?beq, ?bne, ?blez, ?bgtz, ?bltz, ?bgez⟩, fun hslot => ?targets⟩
  case beq => exact decode_immediateWord (by decide) .beq (fun _ => rfl) rs rt imm
  case bne => exact decode_immediateWord (by decide) .bne (fun _ => rfl) rs rt imm
  case blez => exact decode_immediateWord (by decide) (fun rs _ => .blez rs) (fun _ => rfl) rs rt imm
  case bgtz => exact decode_immediateWord (by decide) (fun rs _ => .bgtz rs) (fun _ => rfl) rs rt imm
  case bltz => exact decode_regimmWord .bltz (fun _ => rfl) rs imm
  case bgez => exact decode_regimmWord .bgez (fun _ => rfl) rs imm
  case targets =>
    exact ⟨completes_of_conditionalTarget hslot beq_iff_eq rfl, completes_of_conditionalTarget hslot bne_iff_ne rfl,
      completes_of_conditionalTarget hslot (not_zero_ltSigned_iff _) rfl,
      completes_of_conditionalTarget hslot (zero_ltSigned_iff _) rfl,
      completes_of_conditionalTarget hslot (ltSigned_zero_iff _) rfl,
      completes_of_conditionalTarget hslot (not_ltSigned_zero_iff _) rfl⟩

/-- Settles O26: each is a commit of the slot, whose target is read before the link is written. -/
theorem jumpsAndLinks : Obligations.JumpsAndLinks := by
  unfold Obligations.JumpsAndLinks
  intro rs rt rd sa imm target s
  refine ⟨⟨?bltzal, ?bgezal, ?j, ?jal, ?jr, ?jalr⟩, fun hslot => ?targets⟩
  case bltzal => exact decode_regimmWord .bltzal (fun _ => rfl) rs imm
  case bgezal => exact decode_regimmWord .bgezal (fun _ => rfl) rs imm
  case j => exact decode_jumpWord (by decide) .j (fun _ => rfl) target
  case jal => exact decode_jumpWord (by decide) .jal (fun _ => rfl) target
  case jr => exact decode_specialWord (fun rs _ _ _ => .jr rs) (fun _ => rfl) rs rt rd sa
  case jalr => exact decode_specialWord (fun rs _ rd _ => .jalr rd rs) (fun _ => rfl) rs rt rd sa
  case targets =>
    rw [← jumpTarget_eq_ofNat]
    exact ⟨completes_of_conditionalTarget hslot (ltSigned_zero_iff _) rfl,
      completes_of_conditionalTarget hslot (not_ltSigned_zero_iff _) rfl, completes_of_branchTo hslot rfl,
      completes_of_branchTo hslot rfl, completes_of_branchTo hslot rfl, completes_of_branchTo hslot rfl⟩

/-- Settles O27: `exec_controlTransfer` for the branches, jumps and ERET, and `exec_refused` for every other
instruction. -/
theorem controlInDelaySlot : Obligations.ControlInDelaySlot := by
  unfold Obligations.ControlInDelaySlot
  intro i s
  refine ⟨fun hi hslot => ?inSlot, fun hi hslot r => ?outside, fun h => ?only⟩
  case inSlot =>
    rcases exec_controlTransfer hi s with ⟨_, hexec⟩ | ⟨hclear, _⟩
    · exact hexec
    · exact absurd (hslot.symm.trans hclear) (by decide)
  case outside =>
    rcases exec_controlTransfer hi s with ⟨hpending, _⟩ | ⟨_, t, hexec⟩
    · exact absurd (hslot.symm.trans hpending) (by decide)
    · rw [hexec]
      exact nofun
  case only =>
    rcases exec_refused h with ⟨_, hcontrol, hslot⟩ | ⟨hr, _⟩ | ⟨hr, _⟩
    · exact ⟨controlTransfer_of_isControl hcontrol, hslot⟩
    · exact absurd hr (by decide)
    · exact absurd hr (by decide)

end Sys2Proof.Claims
end

section
/-! The loads and stores of 43_loadstore.md (LoadRules, StoreRules): the sub-word reads of the bus are zero-extended, a
store acts by the route of its address, and each rule is one access with its checks in the order of R301. -/

namespace Sys2Proof.Machine

/-! ### Zero extension (20_memory.md R121, R125) -/

/-- Narrowing a zero-extended value and extending it again gives it back. -/
theorem setWidth_setWidth_of_zeroExtended {n : Nat} (h : n ≤ 32) (v : BitVec n) :
    ((v.setWidth 32 : Word).setWidth n).setWidth 32 = (v.setWidth 32 : Word) := by
  rw [BitVec.setWidth_setWidth_of_le v h, BitVec.setWidth_eq]

/-- What the bus reads fits the width of the access. -/
theorem busRead_zeroExtended (s : State) (pa : Word) (w : Width) :
    ((busRead s pa w).setWidth (8 * w.bytes)).setWidth 32 = busRead s pa w := by
  cases w with
  | word => exact (BitVec.setWidth_eq _).trans (BitVec.setWidth_eq _)
  | byte | half =>
    unfold busRead
    split
    case h_1 | h_2 => exact setWidth_setWidth_of_zeroExtended (by decide) _
    case h_3 => rfl

theorem signedByte_eq (v : Word) : signedByte v = (v.setWidth 8).signExtend 32 := by
  rw [signedByte, BitVec.setWidth_eq_extractLsb' (by decide)]

theorem signedHalf_eq (v : Word) : signedHalf v = (v.setWidth 16).signExtend 32 := by
  rw [signedHalf, BitVec.setWidth_eq_extractLsb' (by decide)]

/-! ### Where a store goes (20_memory.md R120 to R127) -/

theorem lt_ramSize_of_route_ram {p : Params} {pa : Word} (h : route p pa = .ram) : pa.toNat < p.ramSize := by
  by_contra hout
  unfold route at h
  rw [if_neg hout] at h
  split at h <;> cases h

/-- A store to a window that is no word store to a register does nothing (20_memory.md R124, R125). -/
theorem busWrite_mmio_other {s : State} {pa : Word} {b : Bank} {o : Nat} {w : Width} (hr : route s.params pa = .mmio b o)
    (hother : ∀ r, w = .word → mmioReg s.params.layout b o = some r → False) (v : Word) : busWrite s pa w v = s := by
  rw [busWrite_mmio hr]
  cases w with
  | byte => rfl
  | half => rfl
  | word => exact mmioStore_word_none (Option.eq_none_iff_forall_not_mem.2 fun r hreg => hother r rfl hreg) v

end Sys2Proof.Machine

namespace Sys2Proof.Claims
open Sys2Proof.Machine Sys2Proof.Laws

/-! ### One lemma a shape of rule -/

section access
variable {α : Type} {i : Instr} {s : State} {x : Access α} {k : α → Result} (hexec : exec i s = x.andThen s k)
include hexec

theorem completes_of_access_ok {a : α} {t : State} {P : State → Prop} (hx : x = .ok a) (hk : k a = .next t) (ht : P t) :
    Completes i s P := by
  rw [hx] at hexec
  exact ⟨t, hexec.trans hk, ht⟩

theorem completes_of_access_raise {e : Exc} (hx : x = .raise e) : Completes i s (EntersWith e s) := by
  rw [hx] at hexec
  exact ⟨_, hexec, entersWith_enterException e s⟩

theorem exec_of_access_refuse {r : Refusal} (hx : x = .refuse r) : exec i s = .refused r := by
  rw [hx] at hexec
  exact hexec

end access

/-- An instruction that is a load obeys the rule of loads, if its extension is the rule's on what the bus reads. -/
theorem loadRule_of {o : BitVec 6} {build : RegNum → Imm16 → RegNum → Instr} {w : Width} {extend : Word → Word}
    (ho : o ≠ 0x00#6 ∧ o ≠ 0x01#6 ∧ o ≠ 0x10#6) (f : Word → Word)
    (hdecode : ∀ word, decodeOpcode word o = .instr (build (rtOf word) (immOf word) (rsOf word)))
    (hexec : ∀ rt imm rs s, exec (build rt imm rs) s = loadInto w f rt imm rs s)
    (hvalue : ∀ s pa, f (busRead s pa w) = extend (busRead s pa w)) : LoadRule o build w extend := by
  intro rs rt imm s i va
  have run : exec i s = (load s va w).andThen s fun v => complete (writeReg s rt (f v)) := hexec rt imm rs s
  refine ⟨decode_immediateWord ho (fun rs rt imm => build rt imm rs) hdecode rs rt imm,
    fun hmis => completes_of_access_raise run (load_misaligned hmis),
    fun ha => ⟨fun pa ht => ?ok, fun e ht => ?raise, fun r ht => ?refuse⟩⟩
  all_goals rw [load_aligned ha, ht] at run
  case ok => exact completes_of_access_ok run rfl rfl (hvalue s pa ▸ writesRegister_retire s rt _)
  case raise => exact completes_of_access_raise run rfl
  case refuse => exact exec_of_access_refuse run rfl

/-- The bus write with the commit does what a store does at each kind of address. -/
theorem storesAt_retire_busWrite {s : State} (hram : s.ram.wf) (pa : Word) (w : Width) (v : Word) :
    StoresAt pa w v s (retire (busWrite s pa w v)) := by
  have nothing {t : State} (ht : t = s) : SameRam s (retire t) ∧ (retire t).dev = s.dev ∧ (retire t).draws = s.draws := by
    subst ht
    exact ⟨fun a => by rw [retire_ram], retire_dev _, retire_draws _⟩
  unfold StoresAt
  split
  case h_1 hr =>
    have hpa := lt_ramSize_of_route_ram hr
    have bytes := storesBytes_busWrite hram hpa w v
    unfold StoresBytes at bytes ⊢
    rw [retire_ram, retire_dev, retire_draws]
    refine ⟨bytes, ?_⟩
    rw [busWrite_ram hpa]
    exact ⟨rfl, rfl⟩
  case h_2 bank offset hr =>
    split
    case h_1 r hreg =>
      rw [busWrite_mmio hr, mmioStore_word_some hreg, retire_ram, retire_dev, retire_draws]
      exact ⟨fun _ => rfl, rfl, rfl⟩
    case h_2 hother => exact nothing (busWrite_mmio_other hr hother v)
  case h_3 hr => exact nothing (busWrite_outOfRange hr w v)

/-- An instruction that is a store obeys the rule of stores. -/
theorem storeRule_of {o : BitVec 6} {build : RegNum → Imm16 → RegNum → Instr} {w : Width}
    (ho : o ≠ 0x00#6 ∧ o ≠ 0x01#6 ∧ o ≠ 0x10#6)
    (hdecode : ∀ word, decodeOpcode word o = .instr (build (rtOf word) (immOf word) (rsOf word)))
    (hexec : ∀ rt imm rs s, exec (build rt imm rs) s = storeFrom w rt imm rs s) : StoreRule o build w := by
  intro rs rt imm s i va
  have run : exec i s = (storeAddress s va w).andThen s fun pa => complete (busWrite s pa w (readReg s rt)) :=
    hexec rt imm rs s
  refine ⟨decode_immediateWord ho (fun rs rt imm => build rt imm rs) hdecode rs rt imm,
    fun hmis => completes_of_access_raise run (storeAddress_misaligned hmis),
    fun ha => ⟨fun pa hram ht => ?ok, fun e ht => ?raise, fun r ht => ?refuse⟩⟩
  case ok =>
    refine completes_of_access_ok run ((storeAddress_aligned ha).trans ht) rfl
      ⟨storesAt_retire_busWrite hram pa w _, fun r => ?registers, ?hiLo, ?cop0, ?host, ?advanced⟩
    case registers => exact (readReg_retire _ r).trans (readReg_congr (busWrite_regs s pa w _) r)
    case hiLo => exact ⟨by simp, by simp⟩
    case cop0 => simp
    case host => exact ⟨by simp, by simp, by simp, by simp⟩
    case advanced => exact ⟨by simp [retire_pc], by simp⟩
  case raise => exact completes_of_access_raise run ((storeAddress_aligned ha).trans ht)
  case refuse =>
    obtain ⟨_, _, _, hkind, _⟩ := translate_refuse ht
    exact hkind rfl

/-! ### The settling -/

/-- Settles O17: each is one load, whose extension is the rule's on a value the bus has zero-extended. -/
theorem loadRules : Obligations.LoadRules := by
  unfold Obligations.LoadRules
  refine ⟨?lb, ?lbu, ?lh, ?lhu, ?lw⟩
  case lb =>
    exact loadRule_of (by decide) signedByte (fun _ => rfl) (fun _ _ _ _ => rfl) fun _ _ => signedByte_eq _
  case lbu =>
    exact loadRule_of (by decide) id (fun _ => rfl) (fun _ _ _ _ => rfl) fun s pa => (busRead_zeroExtended s pa .byte).symm
  case lh =>
    exact loadRule_of (by decide) signedHalf (fun _ => rfl) (fun _ _ _ _ => rfl) fun _ _ => signedHalf_eq _
  case lhu =>
    exact loadRule_of (by decide) id (fun _ => rfl) (fun _ _ _ _ => rfl) fun s pa => (busRead_zeroExtended s pa .half).symm
  case lw => exact loadRule_of (by decide) id (fun _ => rfl) (fun _ _ _ _ => rfl) fun _ _ => rfl

/-- Settles O18: each is one store, whose address and bytes `storesAt_retire_busWrite` gives. -/
theorem storeRules : Obligations.StoreRules := by
  unfold Obligations.StoreRules
  refine ⟨?sb, ?sh, ?sw⟩
  case sb => exact storeRule_of (by decide) (fun _ => rfl) fun _ _ _ _ => rfl
  case sh => exact storeRule_of (by decide) (fun _ => rfl) fun _ _ _ _ => rfl
  case sw => exact storeRule_of (by decide) (fun _ => rfl) fun _ _ _ _ => rfl

end Sys2Proof.Claims
end

section
/-! The system instructions of 44_system.md (SyscallAndBreak, ConditionalTraps, MoveToCop0, MoveFromCop0,
ReturnFromException, SyncAndCache, TlbInstructionsRefused): their words, the tests of the traps, and Cause bit by bit. -/

namespace Sys2Proof.Machine

/-! ### The tests of the traps (44_system.md R322 to R333) -/

theorem ltSigned_iff (a b : Word) : ltSigned a b = true ↔ a.toInt < b.toInt := decide_eq_true_iff

theorem ltUnsigned_iff (a b : Word) : ltUnsigned a b = true ↔ a.toNat < b.toNat := decide_eq_true_iff

theorem not_ltSigned_iff (a b : Word) : (!ltSigned a b) = true ↔ b.toInt ≤ a.toInt := by
  rw [Bool.not_eq_true', Bool.eq_false_iff, Ne, ltSigned_iff, Int.not_lt]

theorem not_ltUnsigned_iff (a b : Word) : (!ltUnsigned a b) = true ↔ b.toNat ≤ a.toNat := by
  rw [Bool.not_eq_true', Bool.eq_false_iff, Ne, ltUnsigned_iff, Nat.not_lt]

/-! ### Reading COP0 (44_system.md R345; 10_state.md R53) -/

/-- The aggregate line, by the bits of MI (60_exceptions.md R441). -/
theorem cpuIntAsserted_eq_any (mi : MiRegs) :
    cpuIntAsserted mi = (List.range 32).any fun k => mi.pending.getLsbD k && mi.mask.getLsbD k := by
  rw [Bool.eq_iff_iff, cpuIntAsserted_iff]
  simp

/-- Cause bit by bit: its stored parts, the live line at bit 10, and 0 elsewhere (10_state.md R53). Each position lies
in one field of the concatenation, so the positions are taken one at a time. -/
theorem causeRead_getLsbD (s : State) {j : Nat} (hj : j < 32) : (causeRead s).getLsbD j =
    if j = 31 then s.cp0.bd
    else if j = 15 then s.cp0.ip7
    else if j = 10 then cpuIntAsserted s.dev.mi
    else if j = 8 ∨ j = 9 then s.cp0.swIP.getLsbD (j - 8)
    else if 2 ≤ j ∧ j ≤ 6 then s.cp0.excCode.getLsbD (j - 2)
    else false := by
  unfold causeRead
  simp only [BitVec.getLsbD_append]
  interval_cases j <;> simp

/-- A number that names no register reads 0. -/
theorem cop0Read_unnamed (s : State) {n : RegNum} (h : n ∉ [0, 4, 8, 9, 11, 12, 13, 14]) : cop0Read s n = 0 := by
  unfold cop0Read
  split
  case h_9 => rfl
  all_goals exact absurd (by decide) h

end Sys2Proof.Machine

namespace Sys2Proof.Laws
open Sys2Proof.Claims

/-! ### Decoding whatever the ignored fields hold (30_encoding.md R165, R167) -/

/-- A word of SPECIAL with a 20-bit code field decodes to its funct's entry. -/
theorem decode_codeWord {f : BitVec 6} (build : BitVec 20 → Instr)
    (h : ∀ w, decodeSpecial w f = .instr (build (code20Of w))) (code : BitVec 20) :
    decode (codeWord code f) = .instr (build code) := by
  change decode (codeFormat code f) = _
  rw [decode_eq_decodeAt, placeOf_codeFormat, decodeAt, h, code20Of_codeFormat]

/-- A word of SPECIAL with two registers and a 10-bit code field decodes to its funct's entry. -/
theorem decode_trapWord {f : BitVec 6} (build : RegNum → RegNum → BitVec 10 → Instr)
    (h : ∀ w, decodeSpecial w f = .instr (build (rsOf w) (rtOf w) (code10Of w))) (rs rt : RegNum) (code : BitVec 10) :
    decode (trapWord rs rt code f) = .instr (build rs rt code) := by
  change decode (trapFormat rs rt code f) = _
  rw [decode_eq_decodeAt, placeOf_trapFormat, decodeAt, h]
  simp

theorem placeOf_cop0MoveWord {rs : RegNum} (hrs : rs.extractLsb' 4 1 ≠ 1#1) (rt rd : RegNum) (rest : BitVec 11) :
    placeOf (cop0MoveWord rs rt rd rest) = .cop0Move rs := by
  have place : placeOf (cop0MoveFormat rs 0 0) = .cop0Move rs := placeOf_cop0MoveFormat hrs 0 0
  rw [← place]
  refine placeOf_eq_of_and_mask ?_
  rw [place]
  exact cop0MoveWord_rsMask rs rt rd rest

theorem placeOf_cop0FunctionWord (rest : BitVec 19) (f : BitVec 6) :
    placeOf (cop0FunctionWord rest f) = .cop0Function f := by
  rw [← placeOf_cop0FunctionFormat f]
  refine placeOf_eq_of_and_mask ?_
  rw [placeOf_cop0FunctionFormat]
  exact cop0FunctionWord_functMask rest f

theorem rtOf_cop0MoveWord (rs rt rd : RegNum) (rest : BitVec 11) : rtOf (cop0MoveWord rs rt rd rest) = rt :=
  (field_high _ _ (by decide)).trans <| (field_high _ _ (by decide)).trans <| (field_low _ _ (by decide)).trans
    BitVec.extractLsb'_eq_self

theorem rdOf_cop0MoveWord (rs rt rd : RegNum) (rest : BitVec 11) : rdOf (cop0MoveWord rs rt rd rest) = rd :=
  (field_high _ _ (by decide)).trans <| (field_low _ _ (by decide)).trans BitVec.extractLsb'_eq_self

/-- A COP0 move decodes by its rs field, whatever its low 11 bits hold. -/
theorem decode_cop0MoveWord {rs : RegNum} (hrs : rs.extractLsb' 4 1 ≠ 1#1) (build : RegNum → RegNum → Instr)
    (h : ∀ w, decodeCop0Move w rs = .instr (build (rtOf w) (rdOf w))) (rt rd : RegNum) (rest : BitVec 11) :
    decode (cop0MoveWord rs rt rd rest) = .instr (build rt rd) := by
  rw [decode_eq_decodeAt, placeOf_cop0MoveWord hrs, decodeAt, h, rtOf_cop0MoveWord, rdOf_cop0MoveWord]

/-- A COP0 function decodes by its funct field, whatever w[24:6] holds. -/
theorem decode_cop0FunctionWord (rest : BitVec 19) (f : BitVec 6) :
    decode (cop0FunctionWord rest f) = decodeCop0Function f := by
  rw [decode_eq_decodeAt, placeOf_cop0FunctionWord, decodeAt]

end Sys2Proof.Laws

namespace Sys2Proof.Claims
open Sys2Proof.Machine Sys2Proof.Laws

/-! ### One lemma a shape of rule -/

/-- An instruction that tests a trap obeys the rule of traps, for the condition its test decides. -/
theorem trapRule_of_trapWhen {i : Instr} {s : State} {c : Bool} {condition : Prop} (hexec : exec i s = trapWhen c s)
    (hc : c = true ↔ condition) : TrapRule i s condition := by
  refine ⟨fun hholds => ?traps, fun hfails => ?passes⟩
  case traps => exact ⟨_, hexec.trans (if_pos (hc.2 hholds)), enters_enterException .trap s⟩
  case passes => exact ⟨_, hexec.trans (if_neg fun h => hfails (hc.1 h)), doesNothing_retire s⟩

section traps
variable {C : Word → Word → Prop} {test : Word → Word → Bool} (htest : ∀ a b, test a b = true ↔ C a b)
include htest

theorem registerTrapRule_of {f : BitVec 6} {build : RegNum → RegNum → BitVec 10 → Instr}
    (hdecode : ∀ w, decodeSpecial w f = .instr (build (rsOf w) (rtOf w) (code10Of w)))
    (hexec : ∀ rs rt code s, exec (build rs rt code) s = trapWhen (test (readReg s rs) (readReg s rt)) s) :
    RegisterTrapRule f build C :=
  fun rs rt code s => ⟨decode_trapWord build hdecode rs rt code, trapRule_of_trapWhen (hexec rs rt code s) (htest _ _)⟩

theorem immediateTrapRule_of {sub : BitVec 5} {build : RegNum → Imm16 → Instr}
    (hdecode : ∀ w, decodeRegimm w sub = .instr (build (rsOf w) (immOf w)))
    (hexec : ∀ rs imm s, exec (build rs imm) s = trapWhen (test (readReg s rs) (simm imm)) s) :
    ImmediateTrapRule sub build C :=
  fun rs imm s => ⟨decode_regimmWord build hdecode rs imm, trapRule_of_trapWhen (hexec rs imm s) (htest _ _)⟩

end traps

/-- Completing after a change of COP0 alone leaves everything else as completing with nothing done does. -/
theorem frame_retire_cop0Write (s : State) (n : RegNum) (v : Word) :
    SameRegisters s (retire (cop0Write s n v)) ∧ SameHiLo s (retire (cop0Write s n v)) ∧
      SameStore s (retire (cop0Write s n v)) ∧ Advanced s (retire (cop0Write s n v)) := by
  obtain ⟨hregs, hhiLo, _, hstore, hadvanced⟩ := doesNothing_retire (cop0Write s n v)
  exact ⟨hregs, hhiLo, hstore, hadvanced⟩

/-! ### The settling -/

/-- Settles O28: each is the entry of its exception, and its code field is an operand that nothing reads. -/
theorem syscallAndBreak : Obligations.SyscallAndBreak := by
  unfold Obligations.SyscallAndBreak
  intro code s
  exact ⟨decode_codeWord .syscall (fun _ => rfl) code, decode_codeWord .brk (fun _ => rfl) code,
    ⟨_, rfl, enters_enterException .syscall s⟩, ⟨_, rfl, enters_enterException .breakpoint s⟩⟩

/-- Settles O29: each is a trap's test of the rule's condition. -/
theorem conditionalTraps : Obligations.ConditionalTraps := by
  unfold Obligations.ConditionalTraps
  refine ⟨?tge, ?tgeu, ?tlt, ?tltu, ?teq, ?tne, ?tgei, ?tgeiu, ?tlti, ?tltiu, ?teqi, ?tnei⟩
  case tge => exact registerTrapRule_of not_ltSigned_iff (fun _ => rfl) fun _ _ _ _ => rfl
  case tgeu => exact registerTrapRule_of not_ltUnsigned_iff (fun _ => rfl) fun _ _ _ _ => rfl
  case tlt => exact registerTrapRule_of ltSigned_iff (fun _ => rfl) fun _ _ _ _ => rfl
  case tltu => exact registerTrapRule_of ltUnsigned_iff (fun _ => rfl) fun _ _ _ _ => rfl
  case teq => exact registerTrapRule_of (fun _ _ => beq_iff_eq) (fun _ => rfl) fun _ _ _ _ => rfl
  case tne => exact registerTrapRule_of (fun _ _ => bne_iff_ne) (fun _ => rfl) fun _ _ _ _ => rfl
  case tgei => exact immediateTrapRule_of not_ltSigned_iff (fun _ => rfl) fun _ _ _ => rfl
  case tgeiu => exact immediateTrapRule_of not_ltUnsigned_iff (fun _ => rfl) fun _ _ _ => rfl
  case tlti => exact immediateTrapRule_of ltSigned_iff (fun _ => rfl) fun _ _ _ => rfl
  case tltiu => exact immediateTrapRule_of ltUnsigned_iff (fun _ => rfl) fun _ _ _ => rfl
  case teqi => exact immediateTrapRule_of (fun _ _ => beq_iff_eq) (fun _ => rfl) fun _ _ _ => rfl
  case tnei => exact immediateTrapRule_of (fun _ _ => bne_iff_ne) (fun _ => rfl) fun _ _ _ => rfl

/-- Settles O30: MTC0 is CP0Write with the commit, which changes no COP0 register. -/
theorem moveToCop0 : Obligations.MoveToCop0 := by
  unfold Obligations.MoveToCop0
  intro rt n rest s
  exact ⟨decode_cop0MoveWord (by decide) .mtc0 (fun _ => rfl) rt n rest, _, rfl,
    takesCop0_of_cop0Written (retire_cp0 _), frame_retire_cop0Write s n _⟩

/-- Settles O31: MFC0 is one register write, of the value CP0Read gives. -/
theorem moveFromCop0 : Obligations.MoveFromCop0 := by
  unfold Obligations.MoveFromCop0
  intro rt n rest s
  refine ⟨decode_cop0MoveWord (by decide) .mfc0 (fun _ => rfl) rt n rest, cop0Read s n,
    completes_of_writeAndComplete rfl, ?index, ?context, ?badVAddr, ?count, ?compare, ?status, ?epc, ?cause,
    cop0Read_unnamed s⟩
  case cause =>
    rintro rfl j hj
    rw [← cpuIntAsserted_eq_any]
    exact causeRead_getLsbD s hj
  all_goals
    rintro rfl
    rfl

/-- Settles O32: ERET is refused in a delay slot, else it is the return from an exception. -/
theorem returnFromException : Obligations.ReturnFromException := by
  unfold Obligations.ReturnFromException
  intro rest s
  refine ⟨decode_cop0FunctionWord rest 0x18, fun hslot => if_pos hslot, fun hslot => ?returns⟩
  have hexec : exec .eret s = .next (Machine.returnFromException s) := if_neg (by simp [hslot])
  refine ⟨_, hexec, rfl, rfl, fun j hj => ?status, rfl, fun _ => rfl, ⟨rfl, rfl⟩,
    ⟨fun _ => rfl, rfl, rfl, rfl, rfl, rfl, rfl⟩⟩
  rw [decide_not]
  exact and_not_exlBit_getLsbD s.cp0.status j hj

/-- Settles O33: each completes with nothing done. -/
theorem syncAndCache : Obligations.SyncAndCache := by
  unfold Obligations.SyncAndCache
  refine ⟨fun code s => ⟨?sync, _, rfl, doesNothing_retire s⟩, fun base op imm s => ⟨?cache, _, rfl, doesNothing_retire s⟩⟩
  case sync => exact decode_codeWord (fun _ => .sync) (fun _ => rfl) code
  case cache => exact decode_immediateWord (by decide) (fun base op imm => .cache op imm base) (fun _ => rfl) base op imm

/-- Settles O34: of the refusals of `exec_refused`, only that of the four TLB instructions has their cause. -/
theorem tlbInstructionsRefused : Obligations.TlbInstructionsRefused := by
  unfold Obligations.TlbInstructionsRefused
  refine ⟨fun rest => ⟨decode_cop0FunctionWord rest 0x01, decode_cop0FunctionWord rest 0x02,
    decode_cop0FunctionWord rest 0x06, decode_cop0FunctionWord rest 0x08⟩, fun i s => ⟨fun h => ?only, fun h => ?refused⟩⟩
  case only =>
    rcases exec_refused h with ⟨hr, _⟩ | ⟨_, hi⟩ | ⟨hr, _⟩
    · exact absurd hr (by decide)
    · simpa using hi
    · exact absurd hr (by decide)
  case refused =>
    have hi : i = .tlbr ∨ i = .tlbwi ∨ i = .tlbwr ∨ i = .tlbp := by simpa using h
    rcases hi with rfl | rfl | rfl | rfl <;> rfl

end Sys2Proof.Claims
end

section
/-! What a cycle of the scheduler does and keeps (CyclesKeepInvariant, Scheduling, QuietCycle): the machine after the
events due, which have then left the list, and the invariant kept by every host operation. -/

namespace Sys2Proof.Machine

/-! ### The devices' part of the invariant -/

/-- The controllers' bits lie in MI.pending bits 5:0 (10_state.md R65). -/
theorem Controller.bit_high (c : Controller) : c.bit.extractLsb' 6 26 = 0 := by
  cases c <;> decide

/-- A change of the devices that leaves PIF RAM and the mask alone keeps the invariant with the pending bits 31:6. -/
theorem setDev_inv {s : State} (h : Inv s) {d : Devices} (hpif : d.si.pif = s.dev.si.pif)
    (hmask : d.mi.mask = s.dev.mi.mask) (hpending : d.mi.pending.extractLsb' 6 26 = 0) : Inv (s.setDev d) := by
  have hbus : BusInv (s.setDev d) := ⟨h.params, h.ram, hpif ▸ h.pif, hpending, hmask ▸ h.mask⟩
  exact inv_of_parts hbus h.zero h.cop0 h.events

/-- So does one that raises a controller's bit. -/
theorem setDev_miRaise_inv {s : State} (h : Inv s) {d : Devices} (c : Controller) (hpif : d.si.pif = s.dev.si.pif)
    (hmi : d.mi = s.dev.mi) : Inv (s.setDev (d.miRaise c.bit)) :=
  setDev_inv h hpif (congrArg MiRegs.mask hmi :) (highBits_or _ _ (hmi ▸ h.pending) c.bit_high)

/-- A register write keeps the invariant (20_memory.md R128). -/
theorem mmioWrite_inv {s : State} (h : Inv s) (r : MmioReg) (v : Word) : Inv (mmioWrite s r v) := by
  have hbus := mmioWrite_busInv h.bus r v
  obtain ⟨ram, dev, draws, hw⟩ := mmioWrite_shape s r v
  rw [hw] at hbus ⊢
  exact inv_of_parts hbus h.zero h.cop0 h.events

/-- A copy into RAM, cut to what fits, keeps the invariant (60_exceptions.md R461). -/
theorem setRam_copy_inv {s : State} (h : Inv s) (dst n : Nat) (f : Nat → Byte) :
    Inv (s.setRam (s.ram.copy dst f (min n (s.params.ramSize - dst)))) := by
  obtain ⟨hwf, hbelow⟩ := h.ram
  have hcopied := Memory.copy_below hbelow f (copied_fits n dst s.params.ramSize)
  exact inv_of_parts ⟨h.params, ⟨Memory.copy_wf hwf dst f _, hcopied⟩, h.pif, h.pending, h.mask⟩ h.zero h.cop0 h.events

theorem piCompleteDma_inv {s : State} (h : Inv s) : Inv (piCompleteDma s) := by
  unfold piCompleteDma
  split
  · exact setDev_miRaise_inv (setRam_copy_inv h _ _ _) .pi rfl rfl
  · exact h

theorem aiCompleteDma_inv {s : State} (h : Inv s) : Inv (s.setDev s.dev.aiCompleteDma) := by
  unfold Devices.aiCompleteDma
  split
  · exact setDev_miRaise_inv h .ai rfl rfl
  · exact h

/-! ### The host operations keep the invariant -/

theorem refuse_inv {s : State} (h : Inv s) : Inv (refuse s) := h.congr rfl rfl rfl rfl rfl rfl

theorem hostStep_inv {s : State} (h : Inv s) : Inv (hostStep s) := by
  unfold hostStep
  split
  · next t ht => exact Claims.stepKeepsInvariant s t h ht
  · exact refuse_inv h
  · exact refuse_inv h

theorem hostLoad_inv {s : State} (h : Inv s) (va : Word) (w : Width) : Inv (hostLoad s va w).2 := by
  unfold hostLoad
  split
  · exact h
  · exact refuse_inv h

/-- A host access reaches the bus at an aligned address: the segment mapping keeps the alignment (20_memory.md R132). -/
theorem hostTranslate_some_aligned {s : State} (hp : s.params.wellFormed = true) {va pa : Word} {w : Width}
    (h : hostTranslate s va w = some pa) : pa.toNat % w.bytes = 0 := by
  unfold hostTranslate at h
  split at h
  · next ha =>
    split at h
    · next pa' ht =>
      obtain rfl : pa' = pa := Option.some.inj h
      exact translateAddress_aligned (p := { s.params with tlbMode := false }) hp ht ha
    · cases h
  · cases h

theorem hostStore_inv {s : State} (h : Inv s) (va : Word) (w : Width) (v : Word) : Inv (hostStore s va w v) := by
  unfold hostStore
  split
  · next pa ht => exact busWrite_inv h (hostTranslate_some_aligned h.params ht) v
  · exact refuse_inv h

theorem pokeRam_inv {s : State} (h : Inv s) (a : Nat) (b : Byte) : Inv (pokeRam s a b) := by
  obtain ⟨hwf, hbelow⟩ := h.ram
  unfold pokeRam
  split
  · next ha =>
    have hbus : BusInv (s.setRam (s.ram.write a b)) :=
      ⟨h.params, ⟨Memory.write_wf hwf a b, Memory.write_below hbelow ha b⟩, h.pif, h.pending, h.mask⟩
    exact inv_of_parts hbus h.zero h.cop0 h.events
  · exact h

/-- A registration is of a later cycle, or refused (60_exceptions.md R471). -/
theorem scheduleAt_inv {s : State} (h : Inv s) (cycle : Nat) (cb : Callback) : Inv (scheduleAt s cycle cb) := by
  unfold scheduleAt
  split
  · next hlater =>
    refine inv_of_parts ⟨h.params, h.ram, h.pif, h.pending, h.mask⟩ h.zero h.cop0 fun e he => ?_
    rcases List.mem_append.1 he with he | he
    · exact h.events e he
    · obtain rfl := List.mem_singleton.1 he
      exact hlater
  · exact refuse_inv h

theorem scheduleEvery_inv {s : State} (h : Inv s) (start interval times : Nat) (cb : Callback) :
    Inv (scheduleEvery s start interval times cb) := by
  unfold scheduleEvery
  split
  · exact refuse_inv h
  · refine List.foldlRecOn _ _ h fun t ht k _ => ?_
    split
    · exact ht
    · exact scheduleAt_inv ht _ _

/-- Every host operation keeps the invariant. A kick of the SI is a register write of the value the register holds, and
MI.clear one of MI_MODE. -/
theorem HostOp.effect_inv {s : State} (h : Inv s) (op : HostOp) : Inv (op.effect s) := by
  cases op with
  | step => exact hostStep_inv h
  | setPc v => exact h.congr rfl rfl rfl rfl rfl rfl
  | setReg r v => exact writeReg_inv h r v
  | cop0Write n v => exact cop0Write_inv h n v
  | load w va => exact hostLoad_inv h va w
  | store w va v => exact hostStore_inv h va w v
  | pokeRam a b => exact pokeRam_inv h a b
  | setRom bytes => exact h.congr rfl rfl rfl rfl rfl rfl
  | spKick => exact mmioWrite_inv h .spCmdStart 0
  | dpRaiseInterrupt => exact setDev_miRaise_inv h .dp rfl rfl
  | viVblank => exact setDev_miRaise_inv h .vi rfl rfl
  | aiCompleteDma => exact aiCompleteDma_inv h
  | piCompleteDma => exact piCompleteDma_inv h
  | siKickRead64B => exact mmioWrite_inv h .siPifRd s.dev.si.pifRd
  | siKickWrite64B => exact mmioWrite_inv h .siPifWr s.dev.si.pifWr
  | raise c => exact setDev_miRaise_inv h c rfl rfl
  | clear c => exact mmioWrite_inv h .miMode c.bit
  | scheduleAt cycle cb => exact scheduleAt_inv h cycle cb
  | scheduleEvery start interval times cb => exact scheduleEvery_inv h start interval times cb
  | getPc | getReg | cop0Read | peekRam => exact h

theorem HostOp.apply_inv {s : State} (h : Inv s) (op : HostOp) : Inv (op.apply s) := by
  unfold HostOp.apply
  split
  · exact h
  · exact op.effect_inv h

theorem applyAll_inv {s : State} (h : Inv s) (ops : List HostOp) : Inv (applyAll ops s) :=
  List.foldlRecOn ops _ h fun _ ht op _ => op.apply_inv ht

/-! ### A cycle (60_exceptions.md R470) -/

/-- The machine at its next cycle, with the events of that cycle taken out of the list. -/
def dueTaken (s : State) : State :=
  s.setSched
    { cycle := s.sched.cycle + 1, events := s.sched.events.filter fun e => decide (e.cycle ≠ s.sched.cycle + 1) }

/-- The operations of the callbacks due at the next cycle, in the order they were registered. -/
def dueOps (s : State) : List HostOp :=
  (s.sched.events.filter fun e => decide (e.cycle = s.sched.cycle + 1)).flatMap fun e => e.callback.ops

/-- A cycle takes the due events out, runs their callbacks and steps, unless one of their operations is refused. -/
theorem stepCycle_dueOps {s : State} (hs : s.refused = false) :
    ((applyAll (dueOps s) (dueTaken s)).refused = false →
        stepCycle s = HostOp.step.apply (applyAll (dueOps s) (dueTaken s))) ∧
      ((applyAll (dueOps s) (dueTaken s)).refused = true → (stepCycle s).refused = true) := by
  have htaken : withEvents (s.sched.events.filter fun e => !(e.cycle == s.sched.cycle + 1))
      (s.setSched { s.sched with cycle := s.sched.cycle + 1 }) = dueTaken s :=
    congrArg (fun kept => s.setSched { cycle := s.sched.cycle + 1, events := kept })
      (List.filter_congr fun e _ => decide_not.symm)
  rw [stepCycle_eq hs, ← htaken]
  obtain ⟨runs, ends⟩ := fireEvents _ (s.setSched { s.sched with cycle := s.sched.cycle + 1 }) s.sched.events rfl
  exact ⟨fun hrun => congrArg HostOp.step.apply (runs hrun), fun hrefused =>
    (congrArg State.refused (HostOp.apply_refused (ends hrefused))).trans (ends hrefused)⟩

/-- A cycle that is not refused keeps the invariant and counts itself: the events left are later than the new cycle, so
the invariant holds before their callbacks run. -/
theorem stepCycle_inv {s : State} (h : Inv s) (hs : s.refused = false) (hcycle : (stepCycle s).refused = false) :
    Inv (stepCycle s) ∧ (stepCycle s).sched.cycle = s.sched.cycle + 1 := by
  obtain ⟨runs, ends⟩ := stepCycle_dueOps hs
  have hrun : (applyAll (dueOps s) (dueTaken s)).refused = false :=
    Bool.eq_false_iff.2 fun hrefused => absurd (hcycle.symm.trans (ends hrefused)) (by decide)
  rw [runs hrun]
  have htaken : Inv (dueTaken s) := by
    refine inv_of_parts ⟨h.params, h.ram, h.pif, h.pending, h.mask⟩ h.zero h.cop0 fun e he => ?_
    obtain ⟨hmem, hlater⟩ := List.mem_filter.1 he
    exact Nat.lt_of_le_of_ne (h.events e hmem) (of_decide_eq_true hlater).symm
  refine ⟨HostOp.apply_inv (applyAll_inv htaken _) .step, ?_⟩
  rw [(HostOp.step.appends _).1, (applyAll_appends _ _).1]
  rfl

theorem stepCycles_refused {s : State} (h : s.refused = true) (n : Nat) : stepCycles n s = s := by
  induction n with
  | zero => rfl
  | succ n ih => rw [stepCycles, stepCycle_refused h, ih]

end Sys2Proof.Machine

namespace Sys2Proof.Claims
open Sys2Proof.Machine

/-- Settles O4: by induction on the cycles, each of which keeps the invariant (`stepCycle_inv`); a machine that refuses
on the way stays refused. -/
theorem cyclesKeepInvariant : Obligations.CyclesKeepInvariant := by
  unfold Obligations.CyclesKeepInvariant
  intro n
  induction n with
  | zero => exact fun s h _ => ⟨h, rfl⟩
  | succ n ih =>
    intro s h hrun
    have running {t : State} (ht : (stepCycles n t).refused = false) : t.refused = false :=
      Bool.eq_false_iff.2 fun hrefused => by
        rw [stepCycles_refused hrefused, hrefused] at ht
        cases ht
    have hcycle : (stepCycle s).refused = false := running hrun
    have hs : s.refused = false := Bool.eq_false_iff.2 fun hrefused => by
      rw [stepCycle_refused hrefused, hrefused] at hcycle
      cases hcycle
    obtain ⟨hinv, hcount⟩ := stepCycle_inv h hs hcycle
    obtain ⟨hkept, hcounted⟩ := ih (stepCycle s) hinv hrun
    exact ⟨hkept, by rw [stepCycles, hcounted, hcount]; omega⟩

end Sys2Proof.Claims
end

section
/-! Exceptions, interrupts and the timer of 60_exceptions.md (ExceptionEntry, EntryThenReturn, InterruptEligibility,
InterruptStep, CountTick). -/

namespace Sys2Proof.Machine

/-! ### Interrupts (60_exceptions.md R420 to R425) -/

/-- When a source is eligible (60_exceptions.md R421). -/
theorem eligible_iff (s : State) (n : Nat) : eligible s n = true ↔
    s.cp0.status.getLsbD 0 = true ∧ s.cp0.status.getLsbD 1 = false ∧ s.cp0.status.getLsbD (8 + n) = true ∧
      (causeRead s).getLsbD (8 + n) = true := by
  simp only [eligible, Cop0.ie, Cop0.exl, Cop0.im, Bool.and_eq_true, Bool.not_eq_true', and_assoc]

/-- No interrupt is taken while EXL is 1. -/
theorem interruptTaken_of_exl {s : State} (h : s.cp0.status.getLsbD 1 = true) : interruptTaken s = false :=
  Bool.eq_false_iff.2 fun htaken => by
    obtain ⟨n, _, he⟩ := (interruptTaken_iff s).1 htaken
    obtain ⟨_, hexl, _⟩ := (eligible_iff s n).1 he
    exact absurd (h.symm.trans hexl) (by decide)

/-- The aggregate line interrupts when IE, IM2 and the line are 1 and EXL is 0. -/
theorem interruptTaken_of_line {s : State} (hie : s.cp0.status.getLsbD 0 = true) (hexl : s.cp0.status.getLsbD 1 = false)
    (him : s.cp0.status.getLsbD 10 = true) (hline : cpuIntAsserted s.dev.mi = true) : interruptTaken s = true :=
  (interruptTaken_iff s).2 ⟨2, by decide, (eligible_iff s 2).2 ⟨hie, hexl, him, (causeRead_ip2 s).trans hline⟩⟩

/-- A search of a falling list finds its greatest match. -/
theorem find?_eq_some_iff_greatest {p : Nat → Bool} {l : List Nat} (hl : l.Pairwise (· > ·)) (n : Nat) :
    l.find? p = some n ↔ (n ∈ l ∧ p n = true) ∧ ∀ m, m ∈ l ∧ p m = true → m ≤ n := by
  induction l with
  | nil => simp
  | cons a l ih =>
    obtain ⟨hhead, htail⟩ := List.pairwise_cons.1 hl
    cases ha : p a with
    | true =>
      rw [List.find?_cons_of_pos ha, Option.some.injEq]
      constructor
      · rintro rfl
        refine ⟨⟨List.mem_cons_self, ha⟩, fun m ⟨hm, _⟩ => ?_⟩
        rcases List.mem_cons.1 hm with rfl | hm
        · exact Nat.le_refl _
        · exact Nat.le_of_lt (hhead m hm)
      · rintro ⟨⟨hn, _⟩, hgreatest⟩
        rcases List.mem_cons.1 hn with rfl | hn
        · rfl
        · exact absurd (hgreatest a ⟨List.mem_cons_self, ha⟩) (Nat.not_le.2 (hhead n hn))
    | false =>
      have hmem (m : Nat) : m ∈ a :: l ∧ p m = true ↔ m ∈ l ∧ p m = true := by
        refine and_congr_left fun hm => List.mem_cons.trans (or_iff_right ?_)
        rintro rfl
        exact absurd (ha.symm.trans hm) (by decide)
      rw [List.find?_cons_of_neg (by simp [ha]), ih htail]
      simp only [hmem]

/-- The source taken is the greatest eligible one (60_exceptions.md R423). -/
theorem selectedSource_eq_some_iff (s : State) (n : Nat) : selectedSource s = some n ↔
    (n < 8 ∧ eligible s n = true) ∧ ∀ m, m < 8 ∧ eligible s m = true → m ≤ n := by
  have hmem (m : Nat) : m ∈ [7, 6, 5, 4, 3, 2, 1, 0] ↔ m < 8 := by
    simp only [List.mem_cons, List.not_mem_nil, or_false]
    omega
  unfold selectedSource
  rw [find?_eq_some_iff_greatest (by decide)]
  simp only [hmem]

/-- A step that takes an interrupt is the entry, and runs no instruction (60_exceptions.md R424). -/
theorem step_of_interruptTaken {s : State} (hs : s.refused = false) (hi : interruptTaken s = true) :
    step s = .next (countTick (enterException .interrupt s)) := by
  unfold step
  rw [if_neg (by simp [hs]), if_pos hi]
  rfl

/-! ### Entry and return (60_exceptions.md R410 to R415; 44_system.md R336) -/

/-- Setting EXL and clearing it again gives back a Status in which it was 0. -/
theorem clear_set_exlBit {v : Word} (h : v.getLsbD 1 = false) : (v ||| exlBit) &&& ~~~exlBit = v :=
  BitVec.eq_of_getLsbD_eq fun j hj => by
    rw [Claims.and_not_exlBit_getLsbD _ j hj, Claims.or_exlBit_getLsbD _ j hj]
    by_cases hexl : j = 1
    · rw [hexl]
      exact h.symm
    · simp [hexl]

/-- Outside a delay slot ERET is the return from an exception; the slot is clear after an entry. -/
theorem exec_eret_enterException (e : Exc) (s : State) :
    exec .eret (enterException e s) = .next (returnFromException (enterException e s)) := rfl

/-! ### The tick (60_exceptions.md R436, R437) -/

@[simp] theorem cop0Ticked_bd (c : Cop0) (d : Nat) : (cop0Ticked c d).bd = c.bd := by rw [cop0Ticked_frame]
@[simp] theorem cop0Ticked_epc (c : Cop0) (d : Nat) : (cop0Ticked c d).epc = c.epc := by rw [cop0Ticked_frame]

/-- The tick at which the phase reaches the divisor. -/
theorem cop0Ticked_wrap {c : Cop0} {d : Nat} (h : c.countPhase + 1 = d) : cop0Ticked c d =
    { c with countPhase := 0, count := c.count + 1, ip7 := c.ip7 || c.count + 1 == c.compare } := if_pos h

/-- Every other tick. -/
theorem cop0Ticked_phaseOnly {c : Cop0} {d : Nat} (h : c.countPhase + 1 ≠ d) : cop0Ticked c d =
    { c with countPhase := c.countPhase + 1 } := if_neg h

/-- Quotient and remainder of the next number: the quotient rises where the remainder reaches the divisor. -/
theorem div_mod_succ (m : Nat) {d : Nat} (hd : 0 < d) :
    (m % d + 1 = d → (m + 1) / d = m / d + 1 ∧ (m + 1) % d = 0) ∧
      (m % d + 1 ≠ d → (m + 1) / d = m / d ∧ (m + 1) % d = m % d + 1) := by
  have hm := Nat.mod_add_div m d
  have hlt := Nat.mod_lt m hd
  refine ⟨fun h => (Nat.div_mod_unique hd).2 ⟨?_, hd⟩, fun h => (Nat.div_mod_unique hd).2 ⟨?_, ?_⟩⟩
  · rw [Nat.mul_succ]
    omega
  · omega
  · omega

theorem iterate_countTick_params (n : Nat) (s : State) : (countTick^[n] s).params = s.params := by
  induction n with
  | zero => rfl
  | succ n ih => rw [Function.iterate_succ_apply', countTick_params, ih]

/-- Count and its phase after n ticks: the phase counts ticks, and Count whole divisors of them (60_exceptions.md
R436). -/
theorem iterate_countTick (n : Nat) {s : State} (h : s.cp0.countPhase < s.params.countDivisor) :
    (countTick^[n] s).cp0.count = s.cp0.count + BitVec.ofNat 32 ((s.cp0.countPhase + n) / s.params.countDivisor) ∧
      (countTick^[n] s).cp0.countPhase = (s.cp0.countPhase + n) % s.params.countDivisor := by
  induction n with
  | zero =>
    rw [Nat.add_zero, Nat.div_eq_of_lt h, Nat.mod_eq_of_lt h]
    exact ⟨(BitVec.add_zero _).symm, rfl⟩
  | succ n ih =>
    obtain ⟨hcount, hphase⟩ := ih
    obtain ⟨wraps, keeps⟩ := div_mod_succ (s.cp0.countPhase + n) (Nat.zero_lt_of_lt h)
    rw [Function.iterate_succ_apply', countTick_cp0, iterate_countTick_params, ← Nat.add_assoc]
    by_cases hwrap : (s.cp0.countPhase + n) % s.params.countDivisor + 1 = s.params.countDivisor
    · obtain ⟨hdiv, hmod⟩ := wraps hwrap
      rw [cop0Ticked_wrap (hphase ▸ hwrap), hdiv, hmod, BitVec.ofNat_add, ← BitVec.add_assoc, hcount]
      exact ⟨rfl, rfl⟩
    · obtain ⟨hdiv, hmod⟩ := keeps hwrap
      rw [cop0Ticked_phaseOnly (hphase ▸ hwrap), hdiv, hmod, ← hphase]
      exact ⟨hcount, rfl⟩

end Sys2Proof.Machine

namespace Sys2Proof.Claims
open Sys2Proof.Machine

/-- Settles O37: the entry's parts are those of `entersWith_enterException`, and with EXL set no source is eligible. -/
theorem exceptionEntry : Obligations.ExceptionEntry := by
  unfold Obligations.ExceptionEntry
  exact fun e s => ⟨entersWith_enterException e s, interruptTaken_of_exl⟩

/-- Settles O38: the entry with EXL = 0 sets EPC and EXL, and the return goes to EPC and clears EXL. -/
theorem entryThenReturn : Obligations.EntryThenReturn := by
  unfold Obligations.EntryThenReturn
  intro e s hexl
  have enters := enters_enterException e s
  refine ⟨_, exec_eret_enterException e s, ?pc, rfl, clear_set_exlBit hexl, ?ie, enters.registers, enters.hiLo,
    enters.store⟩
  case pc => exact enters.epc.trans (if_neg fun hset => absurd (hexl.symm.trans hset) (by decide))
  case ie => exact enters.status 0 (by decide)

/-- An entry sets EXL, and the tick keeps it. -/
theorem exl_countTick_enterException (e : Exc) (s : State) :
    (Machine.countTick (enterException e s)).cp0.status.getLsbD 1 = true := by
  rw [countTick_cp0, cop0Ticked_status, (enters_enterException e s).status 1 (by decide)]
  rfl

/-- Settles O39: the step is the entry (`step_of_interruptTaken`), and EXL is 1 after it. -/
theorem interruptStep : Obligations.InterruptStep := by
  unfold Obligations.InterruptStep
  intro s hs hi
  exact ⟨_, enters_enterException .interrupt s, step_of_interruptTaken hs hi,
    interruptTaken_of_exl (exl_countTick_enterException _ s)⟩

/-- Settles O40: eligibility is the rule's condition at each source, and the scan from IP7 down finds the greatest. -/
theorem interruptEligibility : Obligations.InterruptEligibility := by
  unfold Obligations.InterruptEligibility
  intro s eligibleAt
  have heligible (n : Nat) : eligibleAt n ↔ n < 8 ∧ eligible s n = true :=
    and_congr_right fun _ => (eligible_iff s n).symm
  simp only [heligible]
  exact ⟨interruptTaken_iff s, selectedSource_eq_some_iff s⟩

/-- Settles O42: a tick wraps the phase or adds to it, and the rest by induction on the ticks (`iterate_countTick`). -/
theorem countTick : Obligations.CountTick := by
  unfold Obligations.CountTick
  refine ⟨?one, fun n s => iterate_countTick n⟩
  case one =>
    intro s t
    have ht : t.cp0 = cop0Ticked s.cp0 s.params.countDivisor := rfl
    refine ⟨fun hwrap => ?wraps, fun hphase => ?keeps, congrArg s.setCp0 (cop0Ticked_frame _ _)⟩
    case wraps =>
      rw [ht, cop0Ticked_wrap hwrap]
      exact ⟨rfl, BitVec.toNat_add _ _, by simp⟩
    case keeps =>
      rw [ht, cop0Ticked_phaseOnly hphase]
      exact ⟨rfl, rfl, rfl⟩

end Sys2Proof.Claims
end

section
/-! The interrupt aggregator and the controllers' host operations (MaskWrite, Acknowledge, RaiseAndClear, PiDma,
SiKicks): the pending bits and the mask bit by bit, and the bytes each transfer leaves. -/

namespace Sys2Proof.Machine
open Sys2Proof.Claims

/-! ### MI.pending (60_exceptions.md R440) -/

/-- A controller's bit is the one of its number (10_state.md R65). -/
theorem Controller.bit_getLsbD (c : Controller) {j : Nat} (hj : j < 32) :
    c.bit.getLsbD j = decide (j = miNumber c) := by
  have bits : ∀ j < 32, c.bit.getLsbD j = decide (j = miNumber c) := by cases c <;> decide
  exact bits j hj

theorem miRaise_pending_getLsbD (d : Devices) (c : Controller) {j : Nat} (hj : j < 32) :
    (d.miRaise c.bit).mi.pending.getLsbD j = (decide (j = miNumber c) || d.mi.pending.getLsbD j) := by
  rw [Devices.miRaise, BitVec.getLsbD_or, c.bit_getLsbD hj, Bool.or_comm]

theorem miClear_pending_getLsbD (d : Devices) (c : Controller) {j : Nat} (hj : j < 32) :
    (d.miClear c.bit).mi.pending.getLsbD j = (decide (j ≠ miNumber c) && d.mi.pending.getLsbD j) := by
  rw [Devices.miClear, BitVec.getLsbD_and, BitVec.getLsbD_not, c.bit_getLsbD hj, decide_eq_true hj, Bool.true_and,
    decide_not, Bool.and_comm]

/-- Raising twice is raising once. -/
theorem miRaise_miRaise (d : Devices) (bits : Word) : (d.miRaise bits).miRaise bits = d.miRaise bits := by
  have h : d.mi.pending ||| bits ||| bits = d.mi.pending ||| bits := by rw [BitVec.or_assoc, BitVec.or_self]
  exact congrArg (fun p => { d with mi := { d.mi with pending := p } }) h

/-- Clearing twice is clearing once. -/
theorem miClear_miClear (d : Devices) (bits : Word) : (d.miClear bits).miClear bits = d.miClear bits := by
  have h : d.mi.pending &&& ~~~bits &&& ~~~bits = d.mi.pending &&& ~~~bits := by rw [BitVec.and_assoc, BitVec.and_self]
  exact congrArg (fun p => { d with mi := { d.mi with pending := p } }) h

/-- A host operation that changes the devices alone, by a change that is the same twice as once. -/
theorem HostOp.apply_devices {op : HostOp} {f : Devices → Devices} (hop : ∀ s : State, op.effect s = s.setDev (f s.dev))
    (hf : ∀ d, f (f d) = f d) {s : State} (hs : s.refused = false) :
    op.apply s = s.setDev (f s.dev) ∧ op.apply (op.apply s) = op.apply s := by
  have run {u : State} (hu : u.refused = false) : op.apply u = u.setDev (f u.dev) := (HostOp.apply_eq hu).trans (hop u)
  have twice : op.apply (s.setDev (f s.dev)) = s.setDev (f (f s.dev)) := run (u := s.setDev (f s.dev)) hs
  exact ⟨run hs, by rw [run hs, twice, hf]⟩

/-! ### The status registers (60_exceptions.md R451, R462) -/

/-- SP's ack without its start. -/
theorem spStatusWrite_ack {l : SpLayout} {d : Devices} {v : Word} (hack : v.getLsbD l.ackBit = true)
    (hstart : v.getLsbD l.startBit = false) : d.spStatusWrite l v = d.spAck := by
  unfold Devices.spStatusWrite
  rw [if_neg (Bool.eq_false_iff.1 hstart), if_pos hack]

theorem spStatusWrite_none {l : SpLayout} {d : Devices} {v : Word} (hack : v.getLsbD l.ackBit = false)
    (hstart : v.getLsbD l.startBit = false) : d.spStatusWrite l v = d := by
  unfold Devices.spStatusWrite
  rw [if_neg (Bool.eq_false_iff.1 hstart), if_neg (Bool.eq_false_iff.1 hack)]

/-- PI's IO-busy bit alone clears that flag only. -/
theorem piStatusWrite_io {l : PiLayout} {d : Devices} {v : Word} (hdma : v.getLsbD l.dmaBusyBit = false)
    (hio : v.getLsbD l.ioBusyBit = true) : d.piStatusWrite l v = { d with pi := { d.pi with ioBusy := false } } := by
  unfold Devices.piStatusWrite
  rw [if_neg (Bool.eq_false_iff.1 hdma), if_pos hio]

theorem piStatusWrite_none {l : PiLayout} {d : Devices} {v : Word} (hdma : v.getLsbD l.dmaBusyBit = false)
    (hio : v.getLsbD l.ioBusyBit = false) : d.piStatusWrite l v = d := by
  unfold Devices.piStatusWrite
  rw [if_neg (Bool.eq_false_iff.1 hdma), if_neg (Bool.eq_false_iff.1 hio)]

/-! ### The write of MI_INTR_MASK (60_exceptions.md R443) -/

/-- The mask after the write, in one form: without a conflict the draw has no bit to give. -/
theorem maskWritten_eq (mask v : Word) (draw : BitVec 16) : maskWritten mask v draw =
    ((mask.extractLsb' 0 16 ||| v.extractLsb' 0 16) &&& ~~~v.extractLsb' 16 16 |||
      v.extractLsb' 0 16 &&& v.extractLsb' 16 16 &&& draw : BitVec 16).setWidth 32 := by
  unfold maskWritten
  dsimp only
  split
  · next hnone => simp [hnone]
  · rfl

/-- A mask bit after the write: set or kept, unless cleared; the draw's where it is both set and cleared. -/
theorem maskWritten_getLsbD (mask v : Word) (draw : BitVec 16) {i : Nat} (hi : i < 16) :
    (maskWritten mask v draw).getLsbD i =
      ((mask.getLsbD i || v.getLsbD i) && !v.getLsbD (16 + i) ||
        v.getLsbD i && v.getLsbD (16 + i) && draw.getLsbD i) := by
  have hword : i < 32 := by omega
  simp [maskWritten_eq, hi, hword]

/-- Bits 31:16 of the mask are 0 after the write (10_state.md R66). -/
theorem maskWritten_getLsbD_high (mask v : Word) (draw : BitVec 16) {i : Nat} (hi : 16 ≤ i) :
    (maskWritten mask v draw).getLsbD i = false := by
  rw [maskWritten_eq, BitVec.getLsbD_setWidth, BitVec.getLsbD_of_ge _ i hi, Bool.and_false]

/-- No bit is both set and cleared. -/
theorem maskConflict_eq_false_iff (v : Word) :
    maskConflict v = false ↔ ∀ i < 16, v.getLsbD i = false ∨ v.getLsbD (16 + i) = false := by
  rw [Bool.eq_false_iff, Ne, maskConflict_iff]
  simp [imp_iff_not_or]

theorem miMaskWrite_draws (s : State) (v : Word) :
    (miMaskWrite s v).draws = if maskConflict v then s.draws + 1 else s.draws := by
  unfold miMaskWrite
  dsimp only
  split <;> rfl

/-- The write changes the mask and the count of draws alone. -/
theorem miMaskWrite_frame (s : State) (v : Word) : miMaskWrite s v =
    (s.setDev { s.dev with mi := { s.dev.mi with mask := (miMaskWrite s v).dev.mi.mask } }).setDraws
      (miMaskWrite s v).draws := by
  unfold miMaskWrite
  dsimp only
  split <;> rfl

/-! ### Transfers (60_exceptions.md R461, R464, R465) -/

/-- What a copy into RAM, cut to what fits, leaves at an address. -/
theorem Memory.read_copy_min {m : Memory} (h : m.wf) (dst n limit : Nat) (f : Nat → Byte) (a : Nat) :
    (m.copy dst f (min n (limit - dst))).read a =
      if dst ≤ a ∧ a < dst + n ∧ a < limit then f (a - dst) else m.read a := by
  rw [Memory.read_copy h]
  exact if_congr (by omega) rfl rfl

end Sys2Proof.Machine

namespace Sys2Proof.Claims
open Sys2Proof.Machine

/-- A register whose write clears a device's flags by `clear` and its pending bit obeys the rule of acknowledgments, in
any well-formed layout. -/
theorem ackRule_of {s : State} {v : Word} (h : s.params.wellFormed = true) (r : MmioReg) (c : Controller)
    {clear : Devices → Devices} (hmi : ∀ d, (clear d).mi = d.mi)
    (hclear : ∀ d, clear ((clear d).miClear c.bit) = (clear d).miClear c.bit)
    (hwrite : ∀ u : State, u.params = s.params → mmioWrite u r v = u.setDev ((clear u.dev).miClear c.bit)) :
    AckRule s (registerAddress s.params.layout r) v (miNumber c) clear := by
  have hack : busWrite s (registerAddress s.params.layout r) .word v = s.setDev ((clear s.dev).miClear c.bit) :=
    ((bus_registerAddress h r).1 v).trans (hwrite s rfl)
  have again : busWrite (s.setDev ((clear s.dev).miClear c.bit)) (registerAddress s.params.layout r) .word v =
      s.setDev ((clear ((clear s.dev).miClear c.bit)).miClear c.bit) :=
    ((bus_registerAddress (s := s.setDev ((clear s.dev).miClear c.bit)) h r).1 v).trans (hwrite _ rfl)
  unfold AckRule
  rw [hack]
  refine ⟨fun j hj => ?pending, ?frame, again.trans ?twice⟩
  case pending =>
    rw [setDev_dev, miClear_pending_getLsbD _ c hj, hmi, Bool.and_comm]
  case frame =>
    rw [← hmi s.dev]
    rfl
  case twice => rw [hclear, miClear_miClear]

/-- Settles O50: the write at the register's address is `miMaskWrite`, given bit by bit above. -/
theorem maskWrite : Obligations.MaskWrite := by
  unfold Obligations.MaskWrite
  intro s v h t
  have ht : t = miMaskWrite s v := (bus_registerAddress h .miIntrMask).1 v
  have hmask := miMaskWrite_mask s v
  have hdraws := miMaskWrite_draws s v
  rw [ht]
  refine ⟨⟨s.draws, Nat.le_refl _, fun i hi => ?low⟩, fun i _ hi => ?high, miMaskWrite_frame s v, ?drawn, ?notDrawn⟩
  case low =>
    rw [hmask, maskWritten_getLsbD _ _ _ hi]
    cases v.getLsbD i <;> cases v.getLsbD (16 + i) <;> simp
  case high => rw [hmask, maskWritten_getLsbD_high _ _ _ hi]
  case drawn =>
    rw [← maskConflict_iff, hdraws]
    cases maskConflict v <;> simp
  case notDrawn =>
    rw [← maskConflict_eq_false_iff, hdraws]
    cases maskConflict v <;> simp

/-- Settles O51: each acknowledgment is one register write, which clears the controller's bit after its flags. -/
theorem acknowledge : Obligations.Acknowledge := by
  unfold Obligations.Acknowledge
  intro s v h l addr
  have writes (r : MmioReg) := (bus_registerAddress h r).1 v
  have noAck {b : Bool} {t : State} (hb : b = false) : (if b then t else s) = s := if_neg (Bool.eq_false_iff.1 hb)
  refine ⟨fun hack hstart => ?sp, fun hack => ?dp, fun hack => ?vi, fun hack => ?ai, fun hack => ?pi, fun hack => ?si,
    fun hack hstart => ?spNone, fun hack => ?dpNone, fun hack => ?viNone, fun hack => ?aiNone, fun hack => ?siNone,
    fun hack hio => ?piIo, fun hack hio => ?piNone⟩
  case sp =>
    exact ackRule_of h .spStatus .sp (fun _ => rfl) (fun _ => rfl) fun u hu =>
      congrArg u.setDev (spStatusWrite_ack (hu ▸ hack) (hu ▸ hstart))
  case dp => exact ackRule_of h .dpStatus .dp (fun _ => rfl) (fun _ => rfl) fun u hu => if_pos (hu ▸ hack)
  case vi => exact ackRule_of h .viStatus .vi (fun _ => rfl) (fun _ => rfl) fun u hu => if_pos (hu ▸ hack)
  case ai => exact ackRule_of h .aiStatus .ai (fun _ => rfl) (fun _ => rfl) fun u hu => if_pos (hu ▸ hack)
  case pi =>
    exact ackRule_of h .piStatus .pi (fun _ => rfl) (fun _ => rfl) fun u hu => congrArg u.setDev (if_pos (hu ▸ hack))
  case si => exact ackRule_of h .siStatus .si (fun _ => rfl) (fun _ => rfl) fun u hu => if_pos (hu ▸ hack)
  case spNone => exact (writes .spStatus).trans (congrArg s.setDev (spStatusWrite_none hack hstart))
  case dpNone => exact (writes .dpStatus).trans (noAck hack)
  case viNone => exact (writes .viStatus).trans (noAck hack)
  case aiNone => exact (writes .aiStatus).trans (noAck hack)
  case siNone => exact (writes .siStatus).trans (noAck hack)
  case piIo => exact (writes .piStatus).trans (congrArg s.setDev (piStatusWrite_io hack hio))
  case piNone => exact (writes .piStatus).trans (congrArg s.setDev (piStatusWrite_none hack hio))

/-- Settles O52: each operation is its effect, and Cause shows the aggregate line at bit 10. -/
theorem raiseAndClear : Obligations.RaiseAndClear := by
  unfold Obligations.RaiseAndClear
  refine ⟨fun c s hs => ⟨?raise, ?clear⟩, fun s hs => ⟨?vblank, ?dp⟩, fun s => ?line⟩
  case raise =>
    obtain ⟨once, twice⟩ :=
      HostOp.apply_devices (op := .raise c) (f := (·.miRaise c.bit)) (fun _ => rfl) (fun d => miRaise_miRaise d _) hs
    refine ⟨fun j hj => ?_, ?_, twice⟩ <;> rw [once]
    · exact miRaise_pending_getLsbD s.dev c hj
    · rfl
  case clear =>
    obtain ⟨once, twice⟩ :=
      HostOp.apply_devices (op := .clear c) (f := (·.miClear c.bit)) (fun _ => rfl) (fun d => miClear_miClear d _) hs
    refine ⟨fun j hj => ?_, ?_, twice⟩ <;> rw [once]
    · exact miClear_pending_getLsbD s.dev c hj
    · rfl
  case vblank => exact (HostOp.apply_eq hs).trans (HostOp.apply_eq hs).symm
  case dp =>
    rw [HostOp.apply_eq hs]
    symm
    exact HostOp.apply_eq hs
  case line => exact (Bool.eq_iff_iff.1 (causeRead_ip2 s)).trans (cpuIntAsserted_iff s.dev.mi)

/-- Settles O55: an armed transfer is a copy cut to what fits, and its change of the devices the rule's. -/
theorem piDma : Obligations.PiDma := by
  unfold Obligations.PiDma
  intro s hs hram t dst src
  have ht : t = piCompleteDma s := HostOp.apply_eq hs
  rw [ht]
  refine ⟨piCompleteDma_idle, fun hbusy => ?_⟩
  obtain ⟨m, hshape⟩ := piCompleteDma_shape hbusy
  refine ⟨fun a => ?bytes, ?frame⟩
  case bytes =>
    rw [piCompleteDma_ram hbusy]
    exact Memory.read_copy_min hram _ _ _ _ a
  case frame =>
    rw [hshape]
    exact ⟨rfl, fun j hj => miRaise_pending_getLsbD s.dev .pi hj, rfl⟩

/-- Settles O56: each kick is a copy of 64 bytes, and the two registers run it after taking the value. -/
theorem siKicks : Obligations.SiKicks := by
  unfold Obligations.SiKicks
  refine ⟨fun s hs hram hpif => ?kicks, fun s v h hs => ⟨?rd, ?wr⟩⟩
  case kicks =>
    intro dst t u
    have ht : t = siKickRead64B s := HostOp.apply_eq hs
    have hu : u = siKickWrite64B s := HostOp.apply_eq hs
    obtain ⟨_, hread⟩ := siKickRead64B_shape s
    obtain ⟨_, hwrite⟩ := siKickWrite64B_shape s
    rw [ht, hu]
    refine ⟨fun a => ?ram, by rw [hread]; rfl, fun k hk => ?pif, by rw [hwrite]; rfl⟩
    case ram =>
      rw [siKickRead64B_ram]
      exact Memory.read_copy_min hram _ _ _ _ a
    case pif =>
      rw [siKickWrite64B_pif, Memory.read_copy hpif, if_pos ⟨Nat.zero_le k, by simpa [pifBytes] using hk⟩]
      rfl
  case rd =>
    rw [(bus_registerAddress h .siPifRd).1 v, HostOp.apply_eq (by exact hs)]
    rfl
  case wr =>
    rw [(bus_registerAddress h .siPifWr).1 v, HostOp.apply_eq (by exact hs)]
    rfl

end Sys2Proof.Claims
end

section
/-! Registrations, cycles without a due event, and events of one cycle (Scheduling, QuietCycle, SameCycleInterrupt). -/

namespace Sys2Proof.Machine

/-! ### Registrations (60_exceptions.md R471, R472; log 16) -/

theorem scheduleEvery_later {s : State} (hs : s.refused = false) {start interval : Nat} (hlater : s.sched.cycle < start)
    (hinterval : interval ≠ 0) (times : Nat) (cb : Callback) : scheduleEvery s start interval times cb =
      s.setSched { s.sched with
        events := s.sched.events ++
          List.ofFn fun k : Fin times => ({ cycle := start + k.val * interval, callback := cb } : Event) } :=
  (if_neg hinterval).trans (registrations start interval cb hs hlater times)

theorem scheduleEvery_zero (s : State) (start times : Nat) (cb : Callback) :
    scheduleEvery s start 0 times cb = refuse s := if_pos rfl

/-- The first registration is the refused one, and no later one is made. -/
theorem scheduleEvery_notLater {s : State} (hs : s.refused = false) {start : Nat} (hpast : start ≤ s.sched.cycle)
    (interval times : Nat) (cb : Callback) : scheduleEvery s start interval (times + 1) cb = refuse s := by
  unfold scheduleEvery
  split
  · rfl
  · rw [List.range_succ_eq_map, List.foldl_cons, if_neg (Bool.eq_false_iff.1 hs), Nat.zero_mul, Nat.add_zero,
      scheduleAt_refused hpast]
    exact registrations_refused _ _ rfl

/-! ### Cycles (60_exceptions.md R470, R474) -/

/-- With no event due, a cycle counts itself and steps. -/
theorem stepCycle_quiet {s : State} (hs : s.refused = false) (h : ∀ e ∈ s.sched.events, e.cycle ≠ s.sched.cycle + 1) :
    stepCycle s = hostStep (s.setSched { s.sched with cycle := s.sched.cycle + 1 }) := by
  have hdue : dueEvents (s.setSched { s.sched with cycle := s.sched.cycle + 1 }) = [] :=
    List.filter_eq_nil_iff.2 fun e he hcycle => h e he (by simpa using hcycle)
  rw [stepCycle_eq hs]
  dsimp only
  rw [hdue]
  exact HostOp.apply_eq hs

/-- An operation that does nothing when repeated does, any positive number of times, what it does once. -/
theorem applyAll_replicate {op : HostOp} {s : State} (h : op.apply (op.apply s) = op.apply s) (m : Nat) :
    applyAll (List.replicate (m + 1) op) s = op.apply s := by
  induction m with
  | zero => rfl
  | succ m ih =>
    rw [List.replicate_succ', applyAll_append, ih]
    exact h

/-- A vblank raises VI's bit, and a second one changes nothing (60_exceptions.md R454). -/
theorem viVblank_apply {s : State} (hs : s.refused = false) :
    HostOp.viVblank.apply s = s.setDev (s.dev.miRaise Controller.vi.bit) ∧
      HostOp.viVblank.apply (HostOp.viVblank.apply s) = HostOp.viVblank.apply s :=
  HostOp.apply_devices (f := Devices.viVblank) (fun _ => rfl) (fun d => miRaise_miRaise d _) hs

/-- A VI event. -/
def vblankEvent (cycle : Nat) : Event := { cycle := cycle, callback := .andThen .viVblank .done }

/-- VI events of the next cycle are all due, and none is left. -/
theorem due_vblankEvents {s : State} {m : Nat}
    (h : s.sched.events = List.replicate m (vblankEvent (s.sched.cycle + 1))) :
    dueOps s = List.replicate m .viVblank ∧ dueTaken s = s.setSched { cycle := s.sched.cycle + 1, events := [] } := by
  have hdue : ∀ e ∈ s.sched.events, e.cycle = s.sched.cycle + 1 := fun e he => by
    rw [h] at he
    rw [List.eq_of_mem_replicate he]
    rfl
  constructor
  · unfold dueOps
    rw [List.filter_eq_self.2 fun e he => decide_eq_true (hdue e he), h, List.flatMap_replicate]
    exact List.flatten_replicate_singleton
  · unfold dueTaken
    rw [List.filter_eq_nil_iff.2 fun e he => by simpa using hdue e he]

/-- The machine at its next cycle with no event left and VI's bit raised. -/
def vblankRaised (s : State) : State :=
  (s.setSched { cycle := s.sched.cycle + 1, events := [] }).setDev (s.dev.miRaise Controller.vi.bit)

/-- The one cycle of VI events, unmasked and enabled, is the entry of the one interrupt with VI's bit raised. -/
theorem stepCycle_vblankEvents {s : State} {m : Nat} (hs : s.refused = false)
    (h : s.sched.events = List.replicate (m + 1) (vblankEvent (s.sched.cycle + 1)))
    (hie : s.cp0.status.getLsbD 0 = true) (hexl : s.cp0.status.getLsbD 1 = false)
    (him : s.cp0.status.getLsbD 10 = true) (hmask : s.dev.mi.mask.getLsbD 3 = true) :
    stepCycle s = countTick (enterException .interrupt (vblankRaised s)) := by
  obtain ⟨hops, htaken⟩ := due_vblankEvents h
  have hfired : applyAll (dueOps s) (dueTaken s) = vblankRaised s := by
    obtain ⟨once, twice⟩ := viVblank_apply (s := s.setSched { cycle := s.sched.cycle + 1, events := [] }) hs
    rw [hops, htaken, applyAll_replicate twice, once]
    rfl
  have hline : cpuIntAsserted (vblankRaised s).dev.mi = true :=
    (cpuIntAsserted_iff _).2 ⟨3, by decide, miRaise_pending_getLsbD s.dev .vi (by decide), hmask⟩
  have htakes : interruptTaken (vblankRaised s) = true := interruptTaken_of_line hie hexl him hline
  have hraised : (vblankRaised s).refused = false := hs
  obtain ⟨runs, _⟩ := stepCycle_dueOps hs
  rw [runs (hfired ▸ hraised), hfired, HostOp.apply_eq hraised]
  exact hostStep_next (step_of_interruptTaken hraised htakes)

end Sys2Proof.Machine

namespace Sys2Proof.Claims
open Sys2Proof.Machine

/-- Settles O57: each registration is of a later cycle, or refused (`scheduleAt_later`, `scheduleAt_refused`). -/
theorem scheduling : Obligations.Scheduling := by
  unfold Obligations.Scheduling
  intro s start interval times cb hs
  have run (op : HostOp) : op.apply s = op.effect s := HostOp.apply_eq hs
  refine ⟨fun hlater => ?once, fun hpast => ?refused, fun hlater hinterval => ?every, fun hpast htimes => ?everyRefused,
    fun hzero => ?zero⟩
  case once => exact (run _).trans (scheduleAt_later hlater)
  case refused => exact (run _).trans (scheduleAt_refused hpast)
  case every => exact (run _).trans (scheduleEvery_later hs hlater (Nat.ne_of_gt hinterval) times cb)
  case everyRefused =>
    obtain ⟨m, rfl⟩ := Nat.exists_eq_add_of_le' htimes
    exact (run _).trans (scheduleEvery_notLater hs hpast interval m cb)
  case zero =>
    subst hzero
    exact (run _).trans (scheduleEvery_zero s start times cb)

/-- Settles O59: with no event due the cycle is the host's step, and a refused machine stays as it is. -/
theorem quietCycle : Obligations.QuietCycle := by
  unfold Obligations.QuietCycle
  refine ⟨fun s hs hquiet => ?quiet, fun s op n hs => ⟨HostOp.apply_refused hs, stepCycles_refused hs n⟩⟩
  case quiet =>
    rw [stepCycle_quiet hs hquiet]
    exact ⟨fun t hstep => hostStep_next hstep, fun r hstep => hostStep_refused hstep⟩

/-- Settles O58: a cycle's events run as one sequence (`stepCycle_dueOps`), and the vblanks of one cycle raise one bit,
on which the step takes the one interrupt (`stepCycle_vblankEvents`). -/
theorem sameCycleInterrupt : Obligations.SameCycleInterrupt := by
  unfold Obligations.SameCycleInterrupt
  refine ⟨fun s hs => stepCycle_dueOps hs, ?vblanks⟩
  intro s m hs hevents hie hexl him hmask t
  have ht : t = Machine.countTick (enterException .interrupt (vblankRaised s)) :=
    stepCycle_vblankEvents hs hevents hie hexl him hmask
  have enters := enters_enterException .interrupt (vblankRaised s)
  have hfrozen : ¬s.cp0.status.getLsbD 1 = true := Bool.eq_false_iff.1 hexl
  rw [ht]
  refine ⟨hs, rfl, rfl, ?excCode, ?bd, ?epc, enters.pc, rfl, exl_countTick_enterException _ _, enters.registers,
    enters.hiLo, fun _ => rfl⟩
  all_goals rw [countTick_cp0]
  case excCode => exact (cop0Ticked_excCode _ _).trans (enters.excCode.trans (if_neg hfrozen))
  case bd => exact (cop0Ticked_bd _ _).trans (enters.bd.trans (if_neg hfrozen))
  case epc => exact (cop0Ticked_epc _ _).trans (enters.epc.trans (if_neg hfrozen))

end Sys2Proof.Claims
end
